-- ==== Sys2Proof/Word.lean ====
section
/-! DEFINITION. The word types of the engine: bytes, 16-bit words, the instruction's field types and register numbers. -/

namespace Sys2Proof

/-- An 8-bit byte: a general register, a timer, a memory byte (R20, R29, R31). -/
abbrev Byte := BitVec 8

/-- A 16-bit word: PC, I, a stack entry, an instruction word, the keypad vector (R24, R26, R27, R70, R41). -/
abbrev Word := BitVec 16

/-- The 12-bit address field NNN of an instruction word (R71). -/
abbrev Addr := BitVec 12

/-- The 4-bit count field N of an instruction word (R71). -/
abbrev Nibble := BitVec 4

/-- A register number 0..15 (R73). It is an index and is never computed with, so it is a `Fin`, not a bit vector. -/
abbrev Reg := Fin 16

/-- VF, register 15 (R21). -/
abbrev vf : Reg := 15

/-- `zext_16(NNN)` (R73). -/
def zextAddr (a : Addr) : Word := a.setWidth 16

/-- `zext_16` of a byte (R9). -/
def zextByte (b : Byte) : Word := b.setWidth 16

end Sys2Proof
end

