-- ==== Sys2Proof/Config.lean ====
section
/-! DEFINITION. The fixed sizes of the engine (R6) and the free values: the random byte of each step (R7, R152). -/

namespace Sys2Proof.Config

/-- `MEM_SIZE`: bytes of memory (R6). -/
abbrev memSize : Nat := 4096

/-- `FONT_SIZE`: 16 glyphs of 5 bytes at addresses 0..79 (R6). -/
abbrev fontSize : Nat := 80

/-- `GLYPH_BYTES` (R6). -/
abbrev glyphBytes : Nat := 5

/-- `PROG_BASE`: the load address and the reset value of PC (R6). -/
abbrev progBase : Nat := 512

/-- `MAX_ROM`: the largest loadable image in bytes, 4096 − 512 (R6). -/
abbrev maxRom : Nat := 3584

/-- `STACK_DEPTH` (R6). -/
abbrev stackDepth : Nat := 16

/-- `SCREEN_W` (R6). -/
abbrev screenW : Nat := 64

/-- `SCREEN_H` (R6). -/
abbrev screenH : Nat := 32

/-- `NUM_KEYS` (R6). -/
abbrev numKeys : Nat := 16

/-- DESIGN CHOICE (assumption 3). The free value behind `RND_IN`: the random byte that the host supplies for the
`n`-th step (R7, R104, R152, decision D13). It has no body, so no proof can see a value of it. -/
opaque randomByte : Nat → Byte

end Sys2Proof.Config
end

