-- ==== Sys2Proof/Syntax.lean ====
section
/-! DEFINITION. The instruction set: one constructor per row of the opcode map (R74), named by its pattern (R79). -/

namespace Sys2Proof

/-- The 34 instructions of R74. A constructor `op8XY4` is the row `8XY4`; its arguments are the row's fields, most
significant first: `x`, `y` register numbers, `nn` the byte NN, `nnn` the address NNN, `n` the count N (R71, R73).
`op8XY6` and `op8XYE` carry the field Y although no rule reads it: it is a free field of their encoding (R78). -/
inductive Instr where
  /-- clear the screen (R170) -/
  | op00E0
  /-- return from subroutine (R120) -/
  | op00EE
  /-- jump (R121) -/
  | op1NNN (nnn : Addr)
  /-- call subroutine (R122) -/
  | op2NNN (nnn : Addr)
  /-- skip if equal to immediate (R130) -/
  | op3XNN (x : Reg) (nn : Byte)
  /-- skip if not equal to immediate (R131) -/
  | op4XNN (x : Reg) (nn : Byte)
  /-- skip if registers equal (R132) -/
  | op5XY0 (x y : Reg)
  /-- load immediate (R141) -/
  | op6XNN (x : Reg) (nn : Byte)
  /-- add immediate (R142) -/
  | op7XNN (x : Reg) (nn : Byte)
  /-- copy register (R143) -/
  | op8XY0 (x y : Reg)
  /-- bitwise OR (R144) -/
  | op8XY1 (x y : Reg)
  /-- bitwise AND (R145) -/
  | op8XY2 (x y : Reg)
  /-- bitwise XOR (R146) -/
  | op8XY3 (x y : Reg)
  /-- add with carry (R147) -/
  | op8XY4 (x y : Reg)
  /-- subtract Vy from Vx (R148) -/
  | op8XY5 (x y : Reg)
  /-- shift right by one (R149) -/
  | op8XY6 (x y : Reg)
  /-- subtract Vx from Vy (R150) -/
  | op8XY7 (x y : Reg)
  /-- shift left by one (R151) -/
  | op8XYE (x y : Reg)
  /-- skip if registers not equal (R133) -/
  | op9XY0 (x y : Reg)
  /-- load index (R160) -/
  | opANNN (nnn : Addr)
  /-- jump with offset V0 (R123) -/
  | opBNNN (nnn : Addr)
  /-- random byte under mask (R152) -/
  | opCXNN (x : Reg) (nn : Byte)
  /-- draw sprite (R171) -/
  | opDXYN (x y : Reg) (n : Nibble)
  /-- skip if key pressed (R134) -/
  | opEX9E (x : Reg)
  /-- skip if key not pressed (R135) -/
  | opEXA1 (x : Reg)
  /-- read delay timer (R181) -/
  | opFX07 (x : Reg)
  /-- wait for a key (R182) -/
  | opFX0A (x : Reg)
  /-- set delay timer (R183) -/
  | opFX15 (x : Reg)
  /-- set sound timer (R184) -/
  | opFX18 (x : Reg)
  /-- add register to index (R161) -/
  | opFX1E (x : Reg)
  /-- point index at a font glyph (R162) -/
  | opFX29 (x : Reg)
  /-- store binary-coded decimal (R163) -/
  | opFX33 (x : Reg)
  /-- store registers V0..VX (R164) -/
  | opFX55 (x : Reg)
  /-- load registers V0..VX (R165) -/
  | opFX65 (x : Reg)
  deriving DecidableEq, Repr

/-- The pattern that names the instruction in R74 (its row's mnemonic in spec/opcode_table.json). -/
def Instr.mnemonic : Instr → String
  | .op00E0 => "00E0"
  | .op00EE => "00EE"
  | .op1NNN _ => "1NNN"
  | .op2NNN _ => "2NNN"
  | .op3XNN _ _ => "3XNN"
  | .op4XNN _ _ => "4XNN"
  | .op5XY0 _ _ => "5XY0"
  | .op6XNN _ _ => "6XNN"
  | .op7XNN _ _ => "7XNN"
  | .op8XY0 _ _ => "8XY0"
  | .op8XY1 _ _ => "8XY1"
  | .op8XY2 _ _ => "8XY2"
  | .op8XY3 _ _ => "8XY3"
  | .op8XY4 _ _ => "8XY4"
  | .op8XY5 _ _ => "8XY5"
  | .op8XY6 _ _ => "8XY6"
  | .op8XY7 _ _ => "8XY7"
  | .op8XYE _ _ => "8XYE"
  | .op9XY0 _ _ => "9XY0"
  | .opANNN _ => "ANNN"
  | .opBNNN _ => "BNNN"
  | .opCXNN _ _ => "CXNN"
  | .opDXYN _ _ _ => "DXYN"
  | .opEX9E _ => "EX9E"
  | .opEXA1 _ => "EXA1"
  | .opFX07 _ => "FX07"
  | .opFX0A _ => "FX0A"
  | .opFX15 _ => "FX15"
  | .opFX18 _ => "FX18"
  | .opFX1E _ => "FX1E"
  | .opFX29 _ => "FX29"
  | .opFX33 _ => "FX33"
  | .opFX55 _ => "FX55"
  | .opFX65 _ => "FX65"

end Sys2Proof
end

