-- ==== Sys2Proof/WellFormed.lean ====
section
/-! DEFINITION. Well-formed instruction words: the match and mask table of R74, and the words it leaves out (R76).
The range of every operand field is in its type (`Reg` is 0..15, `Byte`, `Addr` and `Nibble` have the width of R71),
and no instruction has a field that must hold a particular value beyond the fixed bits of its mask (R78), so every term
of `Instr` is a well-formed instruction; what can be ill-formed is a word. -/

namespace Sys2Proof

/-- One row of R74: a word `op` is this instruction when `op & mask = pattern`. -/
structure OpcodeRow where
  mnemonic : String
  pattern : Word
  mask : Word
  deriving DecidableEq, Repr

/-- The word `op` is the instruction of the row. -/
def OpcodeRow.accepts (r : OpcodeRow) (op : Word) : Bool := op &&& r.mask == r.pattern

/-- R74, families 0 to 7. -/
def opcodeTableLow : List OpcodeRow :=
  [ ⟨"00E0", 0x00E0, 0xFFFF⟩, ⟨"00EE", 0x00EE, 0xFFFF⟩, ⟨"1NNN", 0x1000, 0xF000⟩, ⟨"2NNN", 0x2000, 0xF000⟩,
    ⟨"3XNN", 0x3000, 0xF000⟩, ⟨"4XNN", 0x4000, 0xF000⟩, ⟨"5XY0", 0x5000, 0xF00F⟩, ⟨"6XNN", 0x6000, 0xF000⟩,
    ⟨"7XNN", 0x7000, 0xF000⟩ ]

/-- R74, families 8 and 9. -/
def opcodeTableMid : List OpcodeRow :=
  [ ⟨"8XY0", 0x8000, 0xF00F⟩, ⟨"8XY1", 0x8001, 0xF00F⟩, ⟨"8XY2", 0x8002, 0xF00F⟩, ⟨"8XY3", 0x8003, 0xF00F⟩,
    ⟨"8XY4", 0x8004, 0xF00F⟩, ⟨"8XY5", 0x8005, 0xF00F⟩, ⟨"8XY6", 0x8006, 0xF00F⟩, ⟨"8XY7", 0x8007, 0xF00F⟩,
    ⟨"8XYE", 0x800E, 0xF00F⟩, ⟨"9XY0", 0x9000, 0xF00F⟩ ]

/-- R74, families A to F. -/
def opcodeTableHigh : List OpcodeRow :=
  [ ⟨"ANNN", 0xA000, 0xF000⟩, ⟨"BNNN", 0xB000, 0xF000⟩, ⟨"CXNN", 0xC000, 0xF000⟩, ⟨"DXYN", 0xD000, 0xF000⟩,
    ⟨"EX9E", 0xE09E, 0xF0FF⟩, ⟨"EXA1", 0xE0A1, 0xF0FF⟩, ⟨"FX07", 0xF007, 0xF0FF⟩, ⟨"FX0A", 0xF00A, 0xF0FF⟩,
    ⟨"FX15", 0xF015, 0xF0FF⟩, ⟨"FX18", 0xF018, 0xF0FF⟩, ⟨"FX1E", 0xF01E, 0xF0FF⟩, ⟨"FX29", 0xF029, 0xF0FF⟩,
    ⟨"FX33", 0xF033, 0xF0FF⟩, ⟨"FX55", 0xF055, 0xF0FF⟩, ⟨"FX65", 0xF065, 0xF0FF⟩ ]

/-- The 34 rows of R74. -/
def opcodeTable : List OpcodeRow := opcodeTableLow ++ opcodeTableMid ++ opcodeTableHigh

/-- The word is one of the 34 instructions; every other word is illegal (R76, R77). -/
def wellFormedWord (op : Word) : Bool := opcodeTable.any (·.accepts op)

/-- R74's row of the instruction, by its pattern. -/
def Instr.row (i : Instr) : Option OpcodeRow := opcodeTable.find? (·.mnemonic == i.mnemonic)

/-- The instruction is a row of R74. Every term of `Instr` is: the operand ranges are in the types (R73, R78). -/
def Instr.wellFormed (i : Instr) : Bool := i.row.isSome

end Sys2Proof
end

