-- ==== Sys2Proof/Decode.lean ====
section
/-! DEFINITION. The decoder dispatch table (R75), total on any word and any bytes, and the encoder from the same formats (R72). -/

namespace Sys2Proof

/-- Why bytes are not an instruction. -/
inductive DecodeError where
  /-- the word matches no row of R74 (R76); the step then raises `UnknownOpcode` -/
  | unknownOpcode (op : Word)
  /-- fewer than the two bytes of an instruction (R70) -/
  | truncated
  deriving DecidableEq, Repr

/-- The family field `op[15:12]` (R71). -/
def fieldF (op : Word) : BitVec 4 := op.extractLsb' 12 4

/-- The field `X = op[11:8]`, a register number (R71). -/
def fieldX (op : Word) : Reg := (op.extractLsb' 8 4).toFin

/-- The field `Y = op[7:4]`, a register number (R71). -/
def fieldY (op : Word) : Reg := (op.extractLsb' 4 4).toFin

/-- The field `N = op[3:0]` (R71). -/
def fieldN (op : Word) : Nibble := op.extractLsb' 0 4

/-- The field `NN = op[7:0]` (R71). -/
def fieldNN (op : Word) : Byte := op.extractLsb' 0 8

/-- The field `NNN = op[11:0]` (R71). -/
def fieldNNN (op : Word) : Addr := op.extractLsb' 0 12

/-- Family 8, selected by N (R75). -/
def decode8 (op : Word) : Except DecodeError Instr :=
  match fieldN op with
  | 0x0#4 => .ok (.op8XY0 (fieldX op) (fieldY op))
  | 0x1#4 => .ok (.op8XY1 (fieldX op) (fieldY op))
  | 0x2#4 => .ok (.op8XY2 (fieldX op) (fieldY op))
  | 0x3#4 => .ok (.op8XY3 (fieldX op) (fieldY op))
  | 0x4#4 => .ok (.op8XY4 (fieldX op) (fieldY op))
  | 0x5#4 => .ok (.op8XY5 (fieldX op) (fieldY op))
  | 0x6#4 => .ok (.op8XY6 (fieldX op) (fieldY op))
  | 0x7#4 => .ok (.op8XY7 (fieldX op) (fieldY op))
  | 0xE#4 => .ok (.op8XYE (fieldX op) (fieldY op))
  | _ => .error (.unknownOpcode op)

/-- Family E, selected by NN (R75). -/
def decodeE (op : Word) : Except DecodeError Instr :=
  match fieldNN op with
  | 0x9E#8 => .ok (.opEX9E (fieldX op))
  | 0xA1#8 => .ok (.opEXA1 (fieldX op))
  | _ => .error (.unknownOpcode op)

/-- Family F, selected by NN (R75). -/
def decodeF (op : Word) : Except DecodeError Instr :=
  match fieldNN op with
  | 0x07#8 => .ok (.opFX07 (fieldX op))
  | 0x0A#8 => .ok (.opFX0A (fieldX op))
  | 0x15#8 => .ok (.opFX15 (fieldX op))
  | 0x18#8 => .ok (.opFX18 (fieldX op))
  | 0x1E#8 => .ok (.opFX1E (fieldX op))
  | 0x29#8 => .ok (.opFX29 (fieldX op))
  | 0x33#8 => .ok (.opFX33 (fieldX op))
  | 0x55#8 => .ok (.opFX55 (fieldX op))
  | 0x65#8 => .ok (.opFX65 (fieldX op))
  | _ => .error (.unknownOpcode op)

/-- `decode(op)` of R75, a pure function of the word (R102). -/
def decode (op : Word) : Except DecodeError Instr :=
  match fieldF op with
  | 0x0#4 =>
    if op = 0x00E0#16 then .ok .op00E0
    else if op = 0x00EE#16 then .ok .op00EE
    else .error (.unknownOpcode op)
  | 0x1#4 => .ok (.op1NNN (fieldNNN op))
  | 0x2#4 => .ok (.op2NNN (fieldNNN op))
  | 0x3#4 => .ok (.op3XNN (fieldX op) (fieldNN op))
  | 0x4#4 => .ok (.op4XNN (fieldX op) (fieldNN op))
  | 0x5#4 =>
    if fieldN op = 0 then .ok (.op5XY0 (fieldX op) (fieldY op)) else .error (.unknownOpcode op)
  | 0x6#4 => .ok (.op6XNN (fieldX op) (fieldNN op))
  | 0x7#4 => .ok (.op7XNN (fieldX op) (fieldNN op))
  | 0x8#4 => decode8 op
  | 0x9#4 =>
    if fieldN op = 0 then .ok (.op9XY0 (fieldX op) (fieldY op)) else .error (.unknownOpcode op)
  | 0xA#4 => .ok (.opANNN (fieldNNN op))
  | 0xB#4 => .ok (.opBNNN (fieldNNN op))
  | 0xC#4 => .ok (.opCXNN (fieldX op) (fieldNN op))
  | 0xD#4 => .ok (.opDXYN (fieldX op) (fieldY op) (fieldN op))
  | 0xE#4 => decodeE op
  | 0xF#4 => decodeF op
  | _ => .error (.unknownOpcode op) -- no word gets here: the 16 values of F are above

/-- Two bytes combined big-endian: `hi` is `op[15:8]` (R52, R101). -/
def wordOfBytes (hi lo : Byte) : Word := hi ++ lo

/-- The byte of an instruction word at the lower address, bits 15..8 (R52). -/
def highByte (op : Word) : Byte := op.extractLsb' 8 8

/-- The byte of an instruction word at the higher address, bits 7..0 (R52). -/
def lowByte (op : Word) : Byte := op.extractLsb' 0 8

/-- The instruction at the front of a byte string, and the bytes after it (R70). -/
def decodeBytes : List Byte → Except DecodeError (Instr × List Byte)
  | hi :: lo :: rest =>
    match decode (wordOfBytes hi lo) with
    | .ok i => .ok (i, rest)
    | .error e => .error e
  | _ => .error .truncated

/-- The word of `w` that the opcode table's bit numbers describe: bit 0 is the least significant bit of the one word. -/
def tableWord (nbits w : Nat) : Word := BitVec.ofNat 16 (w % 2 ^ nbits)

/-- The instruction the decoder reads from the bytes of a word of the opcode table, laid out as the engine stores them. -/
def decodeTableWord (nbits w : Nat) : Option Instr :=
  if nbits ≤ 16 then
    match decodeBytes [highByte (tableWord nbits w), lowByte (tableWord nbits w)] with
    | .ok (i, _) => some i
    | .error _ => none
  else none

/-- Format `A`: `ffff nnnn nnnn nnnn` (R72). -/
def formatA (f : BitVec 4) (nnn : Addr) : Word := f ++ nnn

/-- Format `XK`: `ffff xxxx kkkk kkkk` (R72); with a fixed sub-opcode for NN it is format `XS`. -/
def formatXK (f : BitVec 4) (x : Reg) (nn : Byte) : Word := f ++ (BitVec.ofFin x : BitVec 4) ++ nn

/-- Format `XYN`: `ffff xxxx yyyy nnnn` (R72); with a fixed sub-opcode for N it is format `XYS`. -/
def formatXYN (f : BitVec 4) (x y : Reg) (n : Nibble) : Word :=
  f ++ (BitVec.ofFin x : BitVec 4) ++ (BitVec.ofFin y : BitVec 4) ++ n

/-- The word of an instruction, from the formats and match values of R72 and R74. -/
def encode : Instr → Word
  | .op00E0 => 0x00E0
  | .op00EE => 0x00EE
  | .op1NNN nnn => formatA 0x1 nnn
  | .op2NNN nnn => formatA 0x2 nnn
  | .op3XNN x nn => formatXK 0x3 x nn
  | .op4XNN x nn => formatXK 0x4 x nn
  | .op5XY0 x y => formatXYN 0x5 x y 0x0
  | .op6XNN x nn => formatXK 0x6 x nn
  | .op7XNN x nn => formatXK 0x7 x nn
  | .op8XY0 x y => formatXYN 0x8 x y 0x0
  | .op8XY1 x y => formatXYN 0x8 x y 0x1
  | .op8XY2 x y => formatXYN 0x8 x y 0x2
  | .op8XY3 x y => formatXYN 0x8 x y 0x3
  | .op8XY4 x y => formatXYN 0x8 x y 0x4
  | .op8XY5 x y => formatXYN 0x8 x y 0x5
  | .op8XY6 x y => formatXYN 0x8 x y 0x6
  | .op8XY7 x y => formatXYN 0x8 x y 0x7
  | .op8XYE x y => formatXYN 0x8 x y 0xE
  | .op9XY0 x y => formatXYN 0x9 x y 0x0
  | .opANNN nnn => formatA 0xA nnn
  | .opBNNN nnn => formatA 0xB nnn
  | .opCXNN x nn => formatXK 0xC x nn
  | .opDXYN x y n => formatXYN 0xD x y n
  | .opEX9E x => formatXK 0xE x 0x9E
  | .opEXA1 x => formatXK 0xE x 0xA1
  | .opFX07 x => formatXK 0xF x 0x07
  | .opFX0A x => formatXK 0xF x 0x0A
  | .opFX15 x => formatXK 0xF x 0x15
  | .opFX18 x => formatXK 0xF x 0x18
  | .opFX1E x => formatXK 0xF x 0x1E
  | .opFX29 x => formatXK 0xF x 0x29
  | .opFX33 x => formatXK 0xF x 0x33
  | .opFX55 x => formatXK 0xF x 0x55
  | .opFX65 x => formatXK 0xF x 0x65

end Sys2Proof
end

