-- ==== Sys2Proof/Machine/State.lean ====
section
/-! DEFINITION. The state of the engine (R20 to R40), its faults and refusals, and the state after construction (R220). -/

namespace Sys2Proof.Machine

/-- Memory `M` (R31, R50): the bytes that differ from what they hold after construction, as (address, byte) pairs in one
canonical form (`Memory.wf`): addresses strictly rising, below 4096, and no entry equal to what its unlisted address
reads as (`Memory.resetByte`). -/
abbrev Memory := List Host.Cell

/-- The framebuffer `FB` (R33): row `y` is a word of 64 pixels, column 0 its most significant bit (assumption 6). -/
abbrev Framebuffer := Vector (BitVec 64) 32

/-- `WAIT`, the key-wait sub-state (R36). -/
inductive Wait where
  /-- the next step fetches -/
  | running
  /-- the next step checks for a new key, for register `x` -/
  | awaitingKey (x : Reg)
  deriving DecidableEq, Repr

/-- The fault kinds (R200). -/
inductive FaultKind where
  /-- the fetched word matches no row of R74; raised by decode -/
  | unknownOpcode
  /-- push with SP = 16; raised by 2NNN -/
  | stackOverflow
  /-- pop with SP = 0; raised by 00EE -/
  | stackUnderflow
  /-- a byte access at an address of 4096 or more; raised by fetch, DXYN, FX33, FX55, FX65 -/
  | memoryOutOfBounds
  /-- `I + V[X] > 0xFFFF`; raised by FX1E -/
  | indexOverflow
  /-- a key number of 16 or more; raised by EX9E, EXA1 -/
  | keyOutOfRange
  deriving DecidableEq, Repr

/-- The fault record `(kind, pc, op, info)` (R39): `op` is absent for a fetch fault; `info` is the kind's value (R200). -/
structure FaultRecord where
  kind : FaultKind
  pc : Word
  op : Option Word
  info : Nat
  deriving DecidableEq, Repr

/-- The state of one engine: the tuple of R40, the two inputs of a step (R41, R104), and two fields of the model's own. -/
structure State where
  /-- V[0]..V[15] (R20) -/
  v : Vector Byte 16
  /-- I, the index register (R26) -/
  i : Word
  /-- PC (R24) -/
  pc : Word
  /-- S[0]..S[15] (R27) -/
  stack : Vector Word 16
  /-- SP, 0..16 (R28) -/
  sp : Fin 17
  /-- DT (R29) -/
  dt : Byte
  /-- ST (R30) -/
  st : Byte
  /-- M (R31) -/
  mem : Memory
  /-- FB (R33) -/
  fb : Framebuffer
  /-- KPREV, bit k for key k (R35) -/
  kprev : Word
  /-- WAIT (R36) -/
  wait : Wait
  /-- RD (R37) -/
  rd : Bool
  /-- BEEP (R38) -/
  beep : Bool
  /-- FAULT (R39) -/
  fault : Option FaultRecord
  /-- the keypad vector `KEYS_IN`, bit k for key k, and so the sample `KEYS` of a step (R34, R41, R43; assumption 2) -/
  keysIn : Word
  /-- `RND_IN`, the random byte of the next step (R41, R152; assumption 3) -/
  rndIn : Byte
  /-- the model's own: how many random bytes the host has supplied (assumption 3) -/
  draws : Nat
  /-- the model's own: `load_application` is still admitted (R42, D19; assumption 5) -/
  loadOpen : Bool
  deriving DecidableEq, Repr

/-- Why a step has no next state. -/
inductive Fault where
  /-- Raised by `step` alone, for an engine that already holds a fault record: it is halted for good and has no step
  (R106). Safe: the model stops where the engine does. A fault that a step RAISES is not this; it is a next state with
  the record written (R111). -/
  | halted (record : FaultRecord)
  deriving DecidableEq, Repr

/-- Why an instruction has no meaning. -/
inductive Refusal where
  /-- Raised by `exec` alone, for an instruction with no meaning yet; no arm raises it. Safe. -/
  | notModelled (mnemonic : String)
  deriving DecidableEq, Repr

/-- The outcome of an instruction or a step. -/
abbrev Result := Host.Outcome State Fault Refusal

/-- The state after construction (R220). `rndIn` is an input and a free value (assumption 3). -/
def State.reset : State where
  v := Vector.replicate 16 0
  i := 0
  pc := 0x200
  stack := Vector.replicate 16 0
  sp := 0
  dt := 0
  st := 0
  mem := []
  fb := Vector.replicate 32 0
  kprev := 0
  wait := .running
  rd := true
  beep := false
  fault := none
  keysIn := 0
  rndIn := Config.randomByte 0
  draws := 1
  loadOpen := true

end Sys2Proof.Machine
end

