-- ==== Sys2Proof/Machine/Memory.lean ====
section
/-! DEFINITION. Memory: the default font, reading and writing one byte, multi-byte accesses with their bounds check (R12, R50 to R58). -/

namespace Sys2Proof.Machine

/-- Glyphs 0 to 7 of the default `FONT` (R32). PRESUMED (assumption 4): the spec takes the bytes from general knowledge. -/
def fontLow : List Byte :=
  [0xF0, 0x90, 0x90, 0x90, 0xF0] ++ [0x20, 0x60, 0x20, 0x20, 0x70] ++
  [0xF0, 0x10, 0xF0, 0x80, 0xF0] ++ [0xF0, 0x10, 0xF0, 0x10, 0xF0] ++
  [0x90, 0x90, 0xF0, 0x10, 0x10] ++ [0xF0, 0x80, 0xF0, 0x10, 0xF0] ++
  [0xF0, 0x80, 0xF0, 0x90, 0xF0] ++ [0xF0, 0x10, 0x20, 0x40, 0x40]

/-- Glyphs 8 to F of the default `FONT` (R32). PRESUMED (assumption 4). -/
def fontHigh : List Byte :=
  [0xF0, 0x90, 0xF0, 0x90, 0xF0] ++ [0xF0, 0x90, 0xF0, 0x10, 0xF0] ++
  [0xF0, 0x90, 0xF0, 0x90, 0x90] ++ [0xE0, 0x90, 0xE0, 0x90, 0xE0] ++
  [0xF0, 0x80, 0x80, 0x80, 0xF0] ++ [0xE0, 0x90, 0x90, 0x90, 0xE0] ++
  [0xF0, 0x80, 0xF0, 0x80, 0xF0] ++ [0xF0, 0x80, 0xF0, 0x80, 0x80]

/-- The default `FONT`, 80 bytes, glyph n at 5n..5n+4 (R32). -/
def fontDefault : List Byte := fontLow ++ fontHigh

/-- What an address that memory does not list reads as: its contents after construction (R31, R57). -/
def Memory.resetByte (a : Nat) : Byte :=
  if a < Config.fontSize then fontDefault.getD a 0 else 0

/-- The canonical form, for the entries from address `lo` up: addresses rise, stay below 4096, and no byte is its reset byte. -/
def Memory.wfFrom : Nat → Memory → Bool
  | _, [] => true
  | lo, (a, b) :: m =>
    decide (lo ≤ a) && decide (a < Config.memSize) && b != Memory.resetByte a && Memory.wfFrom (a + 1) m

/-- Memory is in its canonical form. -/
def Memory.wf (m : Memory) : Bool := Memory.wfFrom 0 m

/-- `M[a]`: the byte that memory lists for `a`, else the reset byte. -/
def Memory.read : Memory → Nat → Byte
  | [], a => Memory.resetByte a
  | (b, w) :: m, a => if a = b then w else Memory.read m a

/-- `M[a] <- v`, keeping the canonical form: a byte equal to the reset byte is not listed. -/
def Memory.write : Memory → Nat → Byte → Memory
  | [], a, v => if v = Memory.resetByte a then [] else [(a, v)]
  | (b, w) :: m, a, v =>
    if a < b then
      if v = Memory.resetByte a then (b, w) :: m else (a, v) :: (b, w) :: m
    else if a = b then
      if v = Memory.resetByte a then m else (a, v) :: m
    else (b, w) :: Memory.write m a v

/-- The bytes `bs` written at `a`, `a + 1`, ..., in increasing address order (R56). -/
def Memory.storeAll : Memory → Nat → List Byte → Memory
  | m, _, [] => m
  | m, a, b :: bs => Memory.storeAll (Memory.write m a b) (a + 1) bs

/-- The `n` bytes read at `a`, `a + 1`, ..., in increasing address order (R56). -/
def Memory.loadAll (m : Memory) : Nat → Nat → List Byte
  | _, 0 => []
  | a, n + 1 => Memory.read m a :: Memory.loadAll m (a + 1) n

/-- The lowest address of the access `a .. a + n − 1` that is outside memory, if one is (R56). -/
def firstOutside : Nat → Nat → Option Nat
  | _, 0 => none
  | a, n + 1 => if a < Config.memSize then firstOutside (a + 1) n else some a

/-- `MemRead(a, 1)` (R12); an error is the out-of-range address. -/
def memRead (m : Memory) (a : Nat) : Except Nat Byte :=
  if a < Config.memSize then .ok (Memory.read m a) else .error a

/-- A read of `n` bytes from `a` (R12, R56): all bounds checks first; an error is the lowest out-of-range address. -/
def readBytes (m : Memory) (a n : Nat) : Except Nat (List Byte) :=
  match firstOutside a n with
  | some bad => .error bad
  | none => .ok (Memory.loadAll m a n)

/-- A write of `bs` from `a` (R12, R56): all bounds checks before any write; an error is the lowest out-of-range address. -/
def writeBytes (m : Memory) (a : Nat) (bs : List Byte) : Except Nat Memory :=
  match firstOutside a bs.length with
  | some bad => .error bad
  | none => .ok (Memory.storeAll m a bs)

end Sys2Proof.Machine
end

