-- ==== Sys2Proof/Machine/Ops.lean ====
section
/-! DEFINITION. The named operations over the state: registers, PC, stack, keypad, raising a fault (R111), and the parts of
the step cycle (R100): fetch, the key-wait check, the timer tick, the end of a step. -/

namespace Sys2Proof.Machine

/-- `V[r]` (R20). -/
def State.readV (s : State) (r : Reg) : Byte := s.v[r.val]

/-- `V[r] <- b` (R20): no register is hardwired. -/
def State.writeV (s : State) (r : Reg) (b : Byte) : State := { s with v := s.v.set r.val b }

/-- `PC <- target` (R11). -/
def State.jump (s : State) (target : Word) : State := { s with pc := target }

/-- `PC <- PC + 2` (R25). -/
def State.advance (s : State) : State := s.jump (s.pc + 2)

/-- `PC <- PC + 4` when the skip condition holds, else `PC <- PC + 2` (R25, R136). -/
def State.skipIf (s : State) (c : Bool) : State := s.jump (s.pc + if c then 4 else 2)

/-- VF, then V[X] (R140): with `x = F` the result is what stays. -/
def State.writeFlagged (s : State) (x : Reg) (flag result : Byte) : State := (s.writeV vf flag).writeV x result

/-- The push of PC (R28): none when SP = 16. -/
def State.push (s : State) : Option State :=
  if h : s.sp.val < 16 then
    some { s with stack := s.stack.set s.sp.val s.pc, sp := ⟨s.sp.val + 1, Nat.succ_lt_succ h⟩ }
  else none

/-- The pop (R28): the popped entry, which keeps its value (D17); none when SP = 0. -/
def State.pop (s : State) : Option (Word × State) :=
  if h : 0 < s.sp.val then
    some (s.stack[s.sp.val - 1]'(by have := s.sp.isLt; omega),
      { s with sp := ⟨s.sp.val - 1, by have := s.sp.isLt; omega⟩ })
  else none

/-- `KEYS[k] = 1` in this step's sample (R34, R105). -/
def State.keyDown (s : State) (k : Fin 16) : Bool := s.keysIn.getLsbD k.val

/-- Key `k` is in `NEW`: pressed in this step's sample and not in the previous one (R107). -/
def State.keyNew (s : State) (k : Nat) : Bool := s.keysIn.getLsbD k && !s.kprev.getLsbD k

/-- `min(NEW)`, the lowest new key (R107, D10); none when `NEW` is empty. -/
def State.newKey (s : State) : Option Nat := (List.range 16).find? s.keyNew

/-- The pixel `FB[y][x]` (R33); false outside the screen. -/
def Framebuffer.pixel (fb : Framebuffer) (x y : Nat) : Bool :=
  if h : y < 32 then fb[y].getMsbD x else false

/-- The code of a fault kind (R200, D27). -/
def FaultKind.code : FaultKind → Nat
  | .unknownOpcode => 1
  | .stackOverflow => 2
  | .stackUnderflow => 3
  | .memoryOutOfBounds => 4
  | .indexOverflow => 5
  | .keyOutOfRange => 6

/-- The state that a fault leaves (R111, R205): the state before, with FAULT written and BEEP = 0. -/
def State.faulted (s : State) (r : FaultRecord) : State := { s with fault := some r, beep := false }

/-- `raise` (R13, R111): the one way a fault is taken. It goes nowhere and saves nothing but the record (R205). -/
def raise (kind : FaultKind) (info : Nat) (op : Option Word) (s : State) : Result :=
  .next (s.faulted { kind := kind, pc := s.pc, op := op, info := info })

/-- `raise` from the execution of `i`, whose word is `encode i` (assumption 7). -/
def raiseFrom (i : Instr) (kind : FaultKind) (info : Nat) (s : State) : Result :=
  raise kind info (some (encode i)) s

/-- The start of a step (R100): `BEEP <- 0`. The keypad sample is `keysIn` itself (assumption 2). -/
def State.startStep (s : State) : State := { s with beep := false }

/-- `fetch()` (R101): the word at PC, or the out-of-range address. -/
def fetch (s : State) : Except Nat Word :=
  match memRead s.mem s.pc.toNat with
  | .error a => .error a
  | .ok hi =>
    match memRead s.mem (s.pc.toNat + 1) with
    | .error a => .error a
    | .ok lo => .ok (wordOfBytes hi lo)

/-- `keywait_check(x)` (R107). -/
def State.keyWaitCheck (s : State) (x : Reg) : State :=
  match s.newKey with
  | some k => { (s.writeV x (BitVec.ofNat 8 k)).advance with wait := .running }
  | none => s

/-- A timer after one tick: one less when it is not 0 (R108). -/
def tickDown (t : Byte) : Byte := if t = 0 then 0 else t - 1

/-- `tick()` (R108): BEEP when ST goes from 1 to 0. -/
def State.tick (s : State) : State :=
  { s with dt := tickDown s.dt, st := tickDown s.st, beep := if s.st = 1 then true else s.beep }

/-- The end of a step that did not fault (R100, R108, R110): the tick, `KPREV <- KEYS`; then the host's next random byte
is a fresh free value (assumption 3) and `load_application` is no longer admitted (R42). -/
def State.endStep (s : State) : State :=
  let t := s.tick
  { t with kprev := t.keysIn, rndIn := Config.randomByte t.draws, draws := t.draws + 1, loadOpen := false }

/-- What a step that began in `s` leaves when its instruction left `t` (R100, R111): if `t` holds a fault, the step is
discarded whole and only the record and BEEP = 0 survive. -/
def State.settle (s t : State) : State :=
  match t.fault with
  | some r => s.faulted r
  | none => t.endStep

/-- `settle` of an outcome. -/
def finishStep (s : State) : Result → Result
  | .next t => .next (s.settle t)
  | .fault r => .fault r
  | .refused r => .refused r

/-- PC points at two bytes of memory (R24). -/
def State.fetchable (s : State) : Bool := decide (s.pc.toNat + 1 < Config.memSize)

/-- The state whose next step fetches and runs the word `op` (assumption 8): its two bytes stored at PC (at `PROG_BASE`
when PC is outside memory), no key-wait and no fault. -/
def State.placeWord (s : State) (op : Word) : State :=
  let pc := if s.fetchable then s.pc else 0x200
  { s with
    pc := pc
    mem := Memory.storeAll s.mem pc.toNat [highByte op, lowByte op]
    wait := .running
    fault := none }

end Sys2Proof.Machine
end

