-- ==== Sys2Proof/Machine/Operands.lean ====
section
/-! DEFINITION. Operand forms (R73, R166): register and key operands, the glyph address, digits, register blocks, sprites. -/

namespace Sys2Proof.Machine

/-- The key that a register value names (R134, R135): none when it is 16 or more (D4). -/
def keyOperand (b : Byte) : Option (Fin 16) :=
  if h : b.toNat < 16 then some ⟨b.toNat, h⟩ else none

/-- The effective address of byte 0 of a memory access; byte r is at this plus r, without wrap (R166). -/
def State.dataAddr (s : State) : Nat := s.i.toNat

/-- The address of the glyph for the low nibble of `b`: `5 · (b & 0xF)` (R162). -/
def glyphAddr (b : Byte) : Word := BitVec.ofNat 16 (Config.glyphBytes * (b.toNat % 16))

/-- The target of BNNN: `zext_16(NNN) + V[0]` (R123), never above 0x10FE. -/
def offsetTarget (nnn : Addr) (v0 : Byte) : Word := zextAddr nnn + zextByte v0

/-- The integer sum `I + V[X]` of FX1E (R161). -/
def indexSum (i : Word) (b : Byte) : Nat := i.toNat + b.toNat

/-- Hundreds, tens and ones of a byte (R163). -/
def bcdDigits (b : Byte) : List Byte :=
  [BitVec.ofNat 8 (b.toNat / 100), BitVec.ofNat 8 (b.toNat / 10 % 10), BitVec.ofNat 8 (b.toNat % 10)]

/-- The bytes V[0], ..., V[X] (R164). -/
def State.regBlock (s : State) (x : Reg) : List Byte := s.v.toList.take (x.val + 1)

/-- `V[r] <- bs[r]` for every r that `bs` has a byte for (R165). -/
def State.loadRegs (s : State) (bs : List Byte) : State :=
  { s with v := Vector.ofFn fun r : Fin 16 => bs.getD r.val s.v[r.val] }

/-- The 64 pixels that one sprite byte covers when drawn from column `x0` (R171, R172): bit 7 is the leftmost pixel, at
column `x0` (D7); pixels right of column 63 are dropped, not wrapped (D6). -/
def spriteRow (b : Byte) (x0 : Nat) : BitVec 64 := (b.setWidth 64 <<< 56) >>> x0

/-- The pixels of screen row `y` that the sprite covers (R172): row r of the sprite is drawn at screen row `y0 + r`. -/
def spriteMask (rows : List Byte) (x0 y0 y : Nat) : BitVec 64 :=
  if y0 ≤ y then
    match rows[y - y0]? with
    | some b => spriteRow b x0
    | none => 0
  else 0

/-- Every pixel that the sprite covers is XORed with 1 (R171). -/
def Framebuffer.xorSprite (fb : Framebuffer) (rows : List Byte) (x0 y0 : Nat) : Framebuffer :=
  Vector.ofFn fun y : Fin 32 => fb[y.val] ^^^ spriteMask rows x0 y0 y.val

end Sys2Proof.Machine
end

