-- ==== Sys2Proof/Machine/Flags.lean ====
section
/-! DEFINITION. Flag computations: the values that 8XY4, 8XY5, 8XY6, 8XY7, 8XYE and DXYN write to VF (R22). -/

namespace Sys2Proof.Machine

/-- A flag as VF holds it: 1 or 0. -/
def flagByte (c : Bool) : Byte := if c then 1 else 0

/-- The carry of `a + b` out of bit 7 (R147). -/
def carryFlag (a b : Byte) : Byte := flagByte (decide (a.toNat + b.toNat > 255))

/-- NOT borrow of `a − b` (R148, R150): 0 when `b > a`, else 1. -/
def noBorrowFlag (a b : Byte) : Byte := flagByte (!decide (b.toNat > a.toNat))

/-- Bit 0, the bit that a right shift drops (R149). -/
def lowBitFlag (a : Byte) : Byte := flagByte (a.getLsbD 0)

/-- Bit 7, the bit that a left shift drops (R151). -/
def highBitFlag (a : Byte) : Byte := flagByte (a.getLsbD 7)

/-- The collision detector (R173): some on-screen pixel that the sprite covers holds 1 before the draw. -/
def Framebuffer.collides (fb : Framebuffer) (rows : List Byte) (x0 y0 : Nat) : Bool :=
  (List.finRange 32).any fun y => fb[y.val] &&& spriteMask rows x0 y0 y.val != 0

/-- The collision flag of DXYN (R171): 0 when no pixel went from 1 to 0 (D8). -/
def collisionFlag (fb : Framebuffer) (rows : List Byte) (x0 y0 : Nat) : Byte := flagByte (fb.collides rows x0 y0)

end Sys2Proof.Machine
end

