-- ==== Sys2Proof/Machine/Alu.lean ====
section
/-! DEFINITION. Register and arithmetic instructions: 6XNN, 7XNN, 8XY0 to 8XY7, 8XYE, CXNN (43_alu.md). -/

namespace Sys2Proof.Machine

/-- 6XNN, load immediate (R141). -/
def exec6XNN (x : Reg) (nn : Byte) (s : State) : Result := .next (s.writeV x nn).advance

/-- 7XNN, add immediate, mod 256, no flag (R142). -/
def exec7XNN (x : Reg) (nn : Byte) (s : State) : Result := .next (s.writeV x (s.readV x + nn)).advance

/-- 8XY0, copy register (R143). -/
def exec8XY0 (x y : Reg) (s : State) : Result := .next (s.writeV x (s.readV y)).advance

/-- 8XY1, bitwise OR, no flag (R144). -/
def exec8XY1 (x y : Reg) (s : State) : Result := .next (s.writeV x (s.readV x ||| s.readV y)).advance

/-- 8XY2, bitwise AND, no flag (R145). -/
def exec8XY2 (x y : Reg) (s : State) : Result := .next (s.writeV x (s.readV x &&& s.readV y)).advance

/-- 8XY3, bitwise XOR, no flag (R146). -/
def exec8XY3 (x y : Reg) (s : State) : Result := .next (s.writeV x (s.readV x ^^^ s.readV y)).advance

/-- 8XY4, add with carry (R147). -/
def exec8XY4 (x y : Reg) (s : State) : Result :=
  let a := s.readV x
  let b := s.readV y
  .next (s.writeFlagged x (carryFlag a b) (a + b)).advance

/-- 8XY5, subtract Vy from Vx (R148). -/
def exec8XY5 (x y : Reg) (s : State) : Result :=
  let a := s.readV x
  let b := s.readV y
  .next (s.writeFlagged x (noBorrowFlag a b) (a - b)).advance

/-- 8XY6, shift Vx right by one; field Y is not read (R149). -/
def exec8XY6 (x _y : Reg) (s : State) : Result :=
  let a := s.readV x
  .next (s.writeFlagged x (lowBitFlag a) (a >>> 1)).advance

/-- 8XY7, subtract Vx from Vy (R150). -/
def exec8XY7 (x y : Reg) (s : State) : Result :=
  let a := s.readV x
  let b := s.readV y
  .next (s.writeFlagged x (noBorrowFlag b a) (b - a)).advance

/-- 8XYE, shift Vx left by one; field Y is not read (R151). -/
def exec8XYE (x _y : Reg) (s : State) : Result :=
  let a := s.readV x
  .next (s.writeFlagged x (highBitFlag a) (a <<< 1)).advance

/-- CXNN, random byte under mask (R152): `rand8()` is this step's `RND_IN`. -/
def execCXNN (x : Reg) (nn : Byte) (s : State) : Result := .next (s.writeV x (s.rndIn &&& nn)).advance

end Sys2Proof.Machine
end

