-- ==== Sys2Proof/Machine/ControlFlow.lean ====
section
/-! DEFINITION. Control transfer: 00EE, 1NNN, 2NNN, BNNN (41_control_flow.md). -/

namespace Sys2Proof.Machine

/-- 00EE, return (R120). -/
def exec00EE (s : State) : Result :=
  match s.pop with
  | none => raiseFrom .op00EE .stackUnderflow (encode .op00EE).toNat s
  | some (ret, t) => .next (t.jump (ret + 2))

/-- 1NNN, jump (R121). -/
def exec1NNN (nnn : Addr) (s : State) : Result := .next (s.jump (zextAddr nnn))

/-- 2NNN, call (R122): it pushes its own address. -/
def exec2NNN (nnn : Addr) (s : State) : Result :=
  match s.push with
  | none => raiseFrom (.op2NNN nnn) .stackOverflow (encode (.op2NNN nnn)).toNat s
  | some t => .next (t.jump (zextAddr nnn))

/-- BNNN, jump with offset V0 (R123). -/
def execBNNN (nnn : Addr) (s : State) : Result := .next (s.jump (offsetTarget nnn (s.readV 0)))

end Sys2Proof.Machine
end

