-- ==== Sys2Proof/Machine/Display.lean ====
section
/-! DEFINITION. Display instructions: 00E0, DXYN (45_display.md). -/

namespace Sys2Proof.Machine

/-- 00E0, clear the screen (R170): RD is set whether or not a pixel changes (conflict C4). -/
def exec00E0 (s : State) : Result := .next { s.advance with fb := Vector.replicate 32 0, rd := true }

/-- DXYN, draw sprite (R171): the coordinates are read before VF is written and are never reduced (D6). -/
def execDXYN (x y : Reg) (n : Nibble) (s : State) : Result :=
  let x0 := (s.readV x).toNat
  let y0 := (s.readV y).toNat
  match readBytes s.mem s.dataAddr n.toNat with
  | .error a => raiseFrom (.opDXYN x y n) .memoryOutOfBounds a s
  | .ok rows =>
    .next { (s.writeV vf (collisionFlag s.fb rows x0 y0)).advance with fb := s.fb.xorSprite rows x0 y0, rd := true }

end Sys2Proof.Machine
end

