-- ==== Sys2Proof/Machine/IndexMemory.lean ====
section
/-! DEFINITION. Index register and memory-block instructions: ANNN, FX1E, FX29, FX33, FX55, FX65 (44_index_memory.md).
I is never changed by an access (R166, D15). -/

namespace Sys2Proof.Machine

/-- ANNN, load index (R160). -/
def execANNN (nnn : Addr) (s : State) : Result := .next { s.advance with i := zextAddr nnn }

/-- FX1E, add register to index (R161): a sum above 0xFFFF faults (D3). -/
def execFX1E (x : Reg) (s : State) : Result :=
  let sum := indexSum s.i (s.readV x)
  if sum > 0xFFFF then raiseFrom (.opFX1E x) .indexOverflow sum s
  else .next { s.advance with i := BitVec.ofNat 16 sum }

/-- FX29, point index at a font glyph (R162). -/
def execFX29 (x : Reg) (s : State) : Result := .next { s.advance with i := glyphAddr (s.readV x) }

/-- FX33, store binary-coded decimal (R163). -/
def execFX33 (x : Reg) (s : State) : Result :=
  match writeBytes s.mem s.dataAddr (bcdDigits (s.readV x)) with
  | .error a => raiseFrom (.opFX33 x) .memoryOutOfBounds a s
  | .ok m => .next { s.advance with mem := m }

/-- FX55, store registers V0..VX (R164). -/
def execFX55 (x : Reg) (s : State) : Result :=
  match writeBytes s.mem s.dataAddr (s.regBlock x) with
  | .error a => raiseFrom (.opFX55 x) .memoryOutOfBounds a s
  | .ok m => .next { s.advance with mem := m }

/-- FX65, load registers V0..VX (R165). -/
def execFX65 (x : Reg) (s : State) : Result :=
  match readBytes s.mem s.dataAddr (x.val + 1) with
  | .error a => raiseFrom (.opFX65 x) .memoryOutOfBounds a s
  | .ok bs => .next (s.loadRegs bs).advance

end Sys2Proof.Machine
end

