-- ==== Sys2Proof/Machine/Skips.lean ====
section
/-! DEFINITION. Conditional skips: 3XNN, 4XNN, 5XY0, 9XY0, EX9E, EXA1 (42_skips.md). -/

namespace Sys2Proof.Machine

/-- 3XNN, skip if equal to immediate (R130). -/
def exec3XNN (x : Reg) (nn : Byte) (s : State) : Result := .next (s.skipIf (s.readV x == nn))

/-- 4XNN, skip if not equal to immediate (R131). -/
def exec4XNN (x : Reg) (nn : Byte) (s : State) : Result := .next (s.skipIf (s.readV x != nn))

/-- 5XY0, skip if registers equal (R132). -/
def exec5XY0 (x y : Reg) (s : State) : Result := .next (s.skipIf (s.readV x == s.readV y))

/-- 9XY0, skip if registers not equal (R133). -/
def exec9XY0 (x y : Reg) (s : State) : Result := .next (s.skipIf (s.readV x != s.readV y))

/-- EX9E, skip if key pressed (R134). -/
def execEX9E (x : Reg) (s : State) : Result :=
  match keyOperand (s.readV x) with
  | none => raiseFrom (.opEX9E x) .keyOutOfRange (s.readV x).toNat s
  | some k => .next (s.skipIf (s.keyDown k))

/-- EXA1, skip if key not pressed (R135). -/
def execEXA1 (x : Reg) (s : State) : Result :=
  match keyOperand (s.readV x) with
  | none => raiseFrom (.opEXA1 x) .keyOutOfRange (s.readV x).toNat s
  | some k => .next (s.skipIf (!s.keyDown k))

end Sys2Proof.Machine
end

