-- ==== Sys2Proof/Machine/TimersKeys.lean ====
section
/-! DEFINITION. Timer and key-wait instructions: FX07, FX0A, FX15, FX18 (46_timers_keys.md). They run before the tick of
their own step (R180). -/

namespace Sys2Proof.Machine

/-- FX07, read delay timer (R181). -/
def execFX07 (x : Reg) (s : State) : Result := .next (s.writeV x s.dt).advance

/-- FX0A, wait for a key (R182): it completes at once when a key is new, else enters `AwaitingKey(X)` with PC unchanged. -/
def execFX0A (x : Reg) (s : State) : Result :=
  .next <| match s.newKey with
    | some k => (s.writeV x (BitVec.ofNat 8 k)).advance
    | none => { s with wait := .awaitingKey x }

/-- FX15, set delay timer (R183). -/
def execFX15 (x : Reg) (s : State) : Result := .next { s.advance with dt := s.readV x }

/-- FX18, set sound timer (R184). -/
def execFX18 (x : Reg) (s : State) : Result := .next { s.advance with st := s.readV x }

end Sys2Proof.Machine
end

