-- ==== Sys2Proof/Machine/Dispatch.lean ====
section
/-! DEFINITION. Execute (R103): one arm per instruction, each one call of its meaning. -/

namespace Sys2Proof.Machine

def exec (i : Instr) (s : State) : Host.Outcome State Fault Refusal :=
  match i with
  | .op00E0 => Sys2Proof.Machine.exec00E0 s
  | .op00EE => Sys2Proof.Machine.exec00EE s
  | .op1NNN nnn => Sys2Proof.Machine.exec1NNN nnn s
  | .op2NNN nnn => Sys2Proof.Machine.exec2NNN nnn s
  | .op3XNN x nn => Sys2Proof.Machine.exec3XNN x nn s
  | .op4XNN x nn => Sys2Proof.Machine.exec4XNN x nn s
  | .op5XY0 x y => Sys2Proof.Machine.exec5XY0 x y s
  | .op6XNN x nn => Sys2Proof.Machine.exec6XNN x nn s
  | .op7XNN x nn => Sys2Proof.Machine.exec7XNN x nn s
  | .op8XY0 x y => Sys2Proof.Machine.exec8XY0 x y s
  | .op8XY1 x y => Sys2Proof.Machine.exec8XY1 x y s
  | .op8XY2 x y => Sys2Proof.Machine.exec8XY2 x y s
  | .op8XY3 x y => Sys2Proof.Machine.exec8XY3 x y s
  | .op8XY4 x y => Sys2Proof.Machine.exec8XY4 x y s
  | .op8XY5 x y => Sys2Proof.Machine.exec8XY5 x y s
  | .op8XY6 x y => Sys2Proof.Machine.exec8XY6 x y s
  | .op8XY7 x y => Sys2Proof.Machine.exec8XY7 x y s
  | .op8XYE x y => Sys2Proof.Machine.exec8XYE x y s
  | .op9XY0 x y => Sys2Proof.Machine.exec9XY0 x y s
  | .opANNN nnn => Sys2Proof.Machine.execANNN nnn s
  | .opBNNN nnn => Sys2Proof.Machine.execBNNN nnn s
  | .opCXNN x nn => Sys2Proof.Machine.execCXNN x nn s
  | .opDXYN x y n => Sys2Proof.Machine.execDXYN x y n s
  | .opEX9E x => Sys2Proof.Machine.execEX9E x s
  | .opEXA1 x => Sys2Proof.Machine.execEXA1 x s
  | .opFX07 x => Sys2Proof.Machine.execFX07 x s
  | .opFX0A x => Sys2Proof.Machine.execFX0A x s
  | .opFX15 x => Sys2Proof.Machine.execFX15 x s
  | .opFX18 x => Sys2Proof.Machine.execFX18 x s
  | .opFX1E x => Sys2Proof.Machine.execFX1E x s
  | .opFX29 x => Sys2Proof.Machine.execFX29 x s
  | .opFX33 x => Sys2Proof.Machine.execFX33 x s
  | .opFX55 x => Sys2Proof.Machine.execFX55 x s
  | .opFX65 x => Sys2Proof.Machine.execFX65 x s

end Sys2Proof.Machine
end

