-- ==== Sys2Proof/Machine/Step.lean ====
section
/-! DEFINITION. One call of *step* (R100): the key-wait check, or fetch, decode and execute; then the tick. -/

namespace Sys2Proof.Machine

/-- *step* (R100). A faulted engine has no step (R106). -/
def step (s : State) : Host.Outcome State Fault Refusal :=
  match s.fault with
  | some r => .fault (.halted r)
  | none =>
    match s.wait with
    | .awaitingKey x => .next (s.settle (s.startStep.keyWaitCheck x))
    | .running =>
      match fetch s with
      | .error a => finishStep s (raise .memoryOutOfBounds a none s.startStep)
      | .ok op =>
        match decode op with
        | .error _ => finishStep s (raise .unknownOpcode op.toNat (some op) s.startStep)
        | .ok i => finishStep s (exec i s.startStep)

/-- The state whose next step fetches and runs the word `w` of the opcode table (assumption 8). -/
def State.withFetchWord (s : State) (nbits w : Nat) : State := s.placeWord (tableWord nbits w)

end Sys2Proof.Machine
end

