-- ==== Sys2Proof/Machine/HostPorts.lean ====
section
/-! DEFINITION. What the host does between steps (R41 to R45): construct, load an image, set the keypad, supply the random
byte, clear the redraw flag, step; and the outputs it reads. -/

namespace Sys2Proof.Machine

/-- Construction with the font `font` (R7, R32, R220): the parameter `FONT` is an argument. -/
def construct (font : Vector Byte 80) : State :=
  { State.reset with mem := Memory.storeAll State.reset.mem 0 font.toList }

/-- What `load_application` answers (R42, R201). -/
inductive LoadResult where
  /-- success -/
  | loaded (s : State)
  /-- the image is longer than 3584 bytes; nothing changes and FAULT is not written (R201) -/
  | romTooLarge
  /-- after the first step, or a second time (R42, D19); nothing changes (assumption 5) -/
  | notAdmitted
  deriving DecidableEq, Repr

/-- `load_application` is admitted: before the first step, and once (R42, R222, D19). A fault means a step was taken. -/
def State.loadAdmitted (s : State) : Bool := s.loadOpen && s.fault.isNone

/-- `load_application(bytes)` (R42). -/
def loadApplication (bytes : List Byte) (s : State) : LoadResult :=
  if s.loadAdmitted then
    if bytes.length > Config.maxRom then .romTooLarge
    else .loaded { s with mem := Memory.storeAll s.mem Config.progBase bytes, loadOpen := false }
  else .notAdmitted

/-- Set-keypad (R43): the host writes the 16-bit vector. -/
def setKeypad (keys : Word) (s : State) : State := { s with keysIn := keys }

/-- The host supplies `RND_IN` of the next step (R41, R210). -/
def setRandom (b : Byte) (s : State) : State := { s with rndIn := b }

/-- Clear-redraw (R44). -/
def clearRedraw (s : State) : State := { s with rd := false }

/-- `FB_OUT` as the row-major byte array of R33: byte `64·y + x` is the pixel, 0 or 1. -/
def frameByte (s : State) (k : Nat) : Byte := flagByte (s.fb.pixel (k % 64) (k / 64))

/-- One act of the host. -/
inductive HostEvent where
  | load (bytes : List Byte)
  | setKeypad (keys : Word)
  | setRandom (b : Byte)
  | clearRedraw
  | step
  deriving DecidableEq, Repr

/-- The state after one act of the host. An operation that is not admitted, and a step of a faulted engine, have no
effect (R42, R106). -/
def hostDo (e : HostEvent) (s : State) : State :=
  match e with
  | .load bytes =>
    match loadApplication bytes s with
    | .loaded t => t
    | .romTooLarge => s
    | .notAdmitted => s
  | .setKeypad keys => setKeypad keys s
  | .setRandom b => setRandom b s
  | .clearRedraw => clearRedraw s
  | .step =>
    match step s with
    | .next t => t
    | .fault _ => s
    | .refused _ => s

/-- The state after a list of the host's acts, the first act first: every behaviour of the engine and its host. -/
def hostRun : List HostEvent → State → State
  | [], s => s
  | e :: es, s => hostRun es (hostDo e s)

end Sys2Proof.Machine
end

