-- ==== Sys2Proof/Safety.lean ====
section
/-! DEFINITION. What claims are stated in: the components of a state and frames over them, halted and running engines, the
invariant of reachable states, fault records as R200 describes them. -/

namespace Sys2Proof

/-- `i` is a word of the format `op & mask = pattern` (R74), and its word is decoded to it. -/
def Instr.EncodedAs (i : Instr) (mask pattern : Word) : Prop :=
  encode i &&& mask = pattern ∧ decode (encode i) = .ok i

/-- `V[r]` is a destination that `i` names: V[X] of R20's list, or V[0]..V[X] of FX65. -/
def Instr.namesDestination (r : Reg) : Instr → Prop
  | .op6XNN x _ | .op7XNN x _ | .opCXNN x _ => r = x
  | .op8XY0 x _ | .op8XY1 x _ | .op8XY2 x _ | .op8XY3 x _ | .op8XY4 x _ | .op8XY5 x _ | .op8XY6 x _ => r = x
  | .op8XY7 x _ | .op8XYE x _ => r = x
  | .opFX07 x | .opFX0A x => r = x
  | .opFX65 x => r ≤ x
  | .op00E0 | .op00EE | .op1NNN _ | .op2NNN _ | .op3XNN _ _ | .op4XNN _ _ | .op5XY0 _ _ | .op9XY0 _ _ => False
  | .opANNN _ | .opBNNN _ | .opDXYN _ _ _ | .opEX9E _ | .opEXA1 _ | .opFX15 _ | .opFX18 _ | .opFX1E _ => False
  | .opFX29 _ | .opFX33 _ | .opFX55 _ => False

/-- `i` writes VF as a flag (R22): 8XY4, 8XY5, 8XY6, 8XY7, 8XYE, DXYN. -/
def Instr.writesFlag : Instr → Prop
  | .op8XY4 _ _ | .op8XY5 _ _ | .op8XY6 _ _ | .op8XY7 _ _ | .op8XYE _ _ | .opDXYN _ _ _ => True
  | .op00E0 | .op00EE | .op1NNN _ | .op2NNN _ | .op3XNN _ _ | .op4XNN _ _ | .op5XY0 _ _ | .op6XNN _ _ => False
  | .op7XNN _ _ | .op8XY0 _ _ | .op8XY1 _ _ | .op8XY2 _ _ | .op8XY3 _ _ | .op9XY0 _ _ | .opANNN _ => False
  | .opBNNN _ | .opCXNN _ _ | .opEX9E _ | .opEXA1 _ | .opFX07 _ | .opFX0A _ | .opFX15 _ | .opFX18 _ => False
  | .opFX1E _ | .opFX29 _ | .opFX33 _ | .opFX55 _ | .opFX65 _ => False

/-- The one kind of fault that the execution of `i` can raise (R204); none for the others. -/
def Instr.ownFault : Instr → Option Machine.FaultKind
  | .op2NNN _ => some .stackOverflow
  | .op00EE => some .stackUnderflow
  | .opFX1E _ => some .indexOverflow
  | .opEX9E _ | .opEXA1 _ => some .keyOutOfRange
  | .opDXYN _ _ _ | .opFX33 _ | .opFX55 _ | .opFX65 _ => some .memoryOutOfBounds
  | .op00E0 | .op1NNN _ | .op3XNN _ _ | .op4XNN _ _ | .op5XY0 _ _ | .op6XNN _ _ | .op7XNN _ _ => none
  | .op8XY0 _ _ | .op8XY1 _ _ | .op8XY2 _ _ | .op8XY3 _ _ | .op8XY4 _ _ | .op8XY5 _ _ | .op8XY6 _ _ => none
  | .op8XY7 _ _ | .op8XYE _ _ | .op9XY0 _ _ | .opANNN _ | .opBNNN _ | .opCXNN _ _ => none
  | .opFX07 _ | .opFX0A _ | .opFX15 _ | .opFX18 _ | .opFX29 _ => none

end Sys2Proof

namespace Sys2Proof.Machine

/-- One observable component of a state: every register, flag, byte of memory and pixel, each under its own name. -/
inductive Component where
  | v (r : Reg)
  | i
  | pc
  | stackEntry (k : Fin 16)
  | sp
  | dt
  | st
  | memByte (a : Nat)
  | pixel (x : Fin 64) (y : Fin 32)
  | kprev
  | wait
  | rd
  | beep
  | fault
  | keysIn
  | rndIn
  | draws
  | loadOpen
  deriving DecidableEq, Repr

/-- The component holds the same in both states. -/
def Component.same (s t : State) : Component → Prop
  | .v r => t.readV r = s.readV r
  | .i => t.i = s.i
  | .pc => t.pc = s.pc
  | .stackEntry k => t.stack[k.val] = s.stack[k.val]
  | .sp => t.sp = s.sp
  | .dt => t.dt = s.dt
  | .st => t.st = s.st
  | .memByte a => Memory.read t.mem a = Memory.read s.mem a
  | .pixel x y => t.fb.pixel x y = s.fb.pixel x y
  | .kprev => t.kprev = s.kprev
  | .wait => t.wait = s.wait
  | .rd => t.rd = s.rd
  | .beep => t.beep = s.beep
  | .fault => t.fault = s.fault
  | .keysIn => t.keysIn = s.keysIn
  | .rndIn => t.rndIn = s.rndIn
  | .draws => t.draws = s.draws
  | .loadOpen => t.loadOpen = s.loadOpen

/-- The frame: every component outside `changed` holds the same in both states. -/
def SameExcept (changed : Component → Prop) (s t : State) : Prop := ∀ c, ¬ changed c → c.same s t

/-- The frame with the changed components in a list. -/
def SameExceptList (changed : List Component) (s t : State) : Prop := SameExcept (· ∈ changed) s t

/-- The engine is halted for good (R106). -/
def State.Halted (s : State) : Prop := s.fault ≠ none

/-- A run without a fault: after the host's acts the engine still has a step (R214). -/
def SafeRun (es : List HostEvent) (s : State) : Prop := (hostRun es s).fault = none

/-- The next step of the engine runs `i`: no fault, no key-wait, and the word at PC decodes to `i` (R100, R103). -/
def State.Fetches (s : State) (i : Instr) : Prop :=
  s.fault = none ∧ s.wait = .running ∧ ∃ op, fetch s = .ok op ∧ decode op = .ok i

/-- The sprite at `I` covers the pixel (px, py) when drawn from (x0, y0) with `n` rows (R172): some row `r` and column `c`
of the sprite land on it, and bit `7 − c` of the row's byte is 1. -/
def State.covers (s : State) (x0 y0 n px py : Nat) : Prop :=
  ∃ r c, r < n ∧ c < 8 ∧ px = x0 + c ∧ py = y0 + r ∧ (Memory.read s.mem (s.dataAddr + r)).getLsbD (7 - c) = true

/-- `FB[py][px] <- FB[py][px] XOR 1` (R171), for a pixel on the screen. -/
def Framebuffer.flip (fb : Framebuffer) (px py : Nat) : Framebuffer :=
  if h : py < 32 then fb.set py (fb[py] ^^^ BitVec.twoPow 64 (63 - px)) else fb

/-- The body of R171's inner loop, for row byte `b` at screen row `py` and column `c`: state (FB, hit). -/
def pixelLoopBody (b : Byte) (x0 py : Nat) (acc : Framebuffer × Bool) (c : Nat) : Framebuffer × Bool :=
  if b.getLsbD (7 - c) then
    if x0 + c ≤ 63 ∧ py ≤ 31 then
      (acc.1.flip (x0 + c) py, acc.2 || acc.1.pixel (x0 + c) py)
    else acc
  else acc

/-- R171's two loops as its pseudocode writes them: for each row, for c in 0..7. The model draws a whole row at once. -/
def pixelLoop : List Byte → Nat → Nat → Framebuffer × Bool → Framebuffer × Bool
  | [], _, _, acc => acc
  | b :: rows, x0, y0, acc => pixelLoop rows x0 (y0 + 1) ((List.range 8).foldl (pixelLoopBody b x0 y0) acc)

/-- The record is as R200 describes its kind: what the opcode is and which values the info can have. -/
def FaultRecord.asSpecified (r : FaultRecord) : Prop :=
  match r.kind with
  | .unknownOpcode => ∃ op, r.op = some op ∧ wellFormedWord op = false ∧ r.info = op.toNat
  | .stackOverflow => ∃ nnn, r.op = some (encode (.op2NNN nnn)) ∧ r.info = (encode (.op2NNN nnn)).toNat
  | .stackUnderflow => r.op = some 0x00EE ∧ r.info = 0x00EE
  | .memoryOutOfBounds =>
    4096 ≤ r.info ∧
      (r.op = none ∨ (∃ x y n, r.op = some (encode (.opDXYN x y n))) ∨ (∃ x, r.op = some (encode (.opFX33 x))) ∨
        (∃ x, r.op = some (encode (.opFX55 x))) ∨ ∃ x, r.op = some (encode (.opFX65 x)))
  | .indexOverflow => 0x10000 ≤ r.info ∧ r.info ≤ 0x100FE ∧ ∃ x, r.op = some (encode (.opFX1E x))
  | .keyOutOfRange =>
    16 ≤ r.info ∧ r.info ≤ 255 ∧ ((∃ x, r.op = some (encode (.opEX9E x))) ∨ ∃ x, r.op = some (encode (.opEXA1 x)))

/-- The invariant of the states an engine can reach. -/
structure Inv (s : State) : Prop where
  /-- memory is in its canonical form: no byte outside 0..4095 is held (R50) -/
  memory : s.mem.wf = true
  /-- no PC value exceeds 0x10FE (R25) -/
  pcBound : s.pc.toNat ≤ 0x10FE
  /-- every stack entry, live or popped, is 0 or the address of a 2NNN that was fetched, so at most 4094 (R120) -/
  stackBound : ∀ k : Fin 16, s.stack[k.val].toNat ≤ 4094
  /-- while the engine waits for register `x`, PC is still at an FX0A of `x` (R107, R182) -/
  waiting : ∀ x, s.wait = .awaitingKey x → ∃ op, fetch s = .ok op ∧ decode op = .ok (.opFX0A x)
  /-- a fault record is as R200 says, is precise (PC is the faulting step's), and comes with BEEP = 0; a waiting step does
  not fault (R111, R204, R205) -/
  faulted : ∀ r, s.fault = some r → r.asSpecified ∧ r.pc = s.pc ∧ s.beep = false ∧ s.wait = .running
  /-- while `load_application` is still admitted, no step has completed: PC is at the program's first byte (R42, R221) -/
  unstepped : s.loadOpen = true → s.wait = .running ∧ s.pc = 0x200

end Sys2Proof.Machine
end

