-- ==== Sys2Proof/Certificates/Slice0/Obligations.lean ====
section
/-! DEFINITION. The statements for the provers, from the numbered rules of the spec. -/

open Sys2Proof Sys2Proof.Machine

/-! ## Encoding (R70 to R80) -/

/-- R74, R75: every instruction is decoded from its own word, with every operand, and from its two bytes at the front of
any byte string. -/
def Obligations.DecodeOfEncodeIsTheInstruction : Prop :=
  ∀ (i : Instr) (rest : List Byte),
    decode (encode i) = .ok i ∧
      decodeBytes (highByte (encode i) :: lowByte (encode i) :: rest) = .ok (i, rest)

/-- R77, R78: a word that decodes to an instruction is that instruction's word: no bit of it is dropped. -/
def Obligations.EncodeOfDecodeIsTheWord : Prop :=
  ∀ (op : Word) (i : Instr), decode op = .ok i → encode i = op

/-- R74, R75, R76 (with the exact masks of decision D5): a word decodes to an instruction exactly when it matches a row of
the opcode table, the row is that instruction's, and every other word is an unknown opcode carrying the word. -/
def Obligations.DecodeFollowsTheOpcodeTable : Prop :=
  ∀ op : Word,
    (∀ i, decode op = .ok i → ∃ r ∈ opcodeTable, r.mnemonic = i.mnemonic ∧ r.accepts op = true) ∧
      (wellFormedWord op = true → ∃ i, decode op = .ok i) ∧
      (wellFormedWord op = false → decode op = .error (.unknownOpcode op))

/-- R74 (with the exact masks of decision D5): no two rows of the opcode table match the same word. -/
def Obligations.OpcodeTableRowsAreDisjoint : Prop :=
  ∀ (r r' : OpcodeRow) (op : Word),
    r ∈ opcodeTable → r' ∈ opcodeTable → r.accepts op = true → r'.accepts op = true → r = r'

/-- R80 (the illegal words 0x00E1 and 0x5121 by decision D5): the example words. -/
def Obligations.ExampleWordsDecodeAsListed : Prop :=
  decode 0x2300 = .ok (.op2NNN 0x300) ∧ decode 0x8124 = .ok (.op8XY4 1 2) ∧ decode 0xD015 = .ok (.opDXYN 0 1 5) ∧
    decode 0xF533 = .ok (.opFX33 5) ∧ decode 0x00E1 = .error (.unknownOpcode 0x00E1) ∧
    decode 0x5121 = .error (.unknownOpcode 0x5121) ∧ decode 0x800F = .error (.unknownOpcode 0x800F)

/-! ## Control transfer (R120 to R124) -/

/-- R121: 1NNN sets PC to NNN (odd or even) and changes nothing else; after a jump to 0xFFF the next step raises
`MemoryOutOfBounds(4096)`, with R101's record and R111's state (the spec's decisions D2 and D1, assumption 9); a jump to
its own address repeats, one step at a time, with the timers ticking. -/
def Obligations.JumpSetsPcToTheAddress : Prop :=
  ∀ (nnn : Addr) (s : State), (Instr.op1NNN nnn).EncodedAs 0xF000 0x1000 ∧
    (∃ t, exec (.op1NNN nnn) s = .next t ∧ t.pc.toNat = nnn.toNat ∧ SameExceptList [.pc] s t ∧
      (nnn = 0xFFF → t.fault = none → t.wait = .running →
        step t = .next { t with fault := some ⟨.memoryOutOfBounds, 0xFFF, none, 4096⟩, beep := false })) ∧
    (s.Fetches (.op1NNN nnn) → s.pc.toNat = nnn.toNat →
      ∃ t, step s = .next t ∧ t.Fetches (.op1NNN nnn) ∧ t.pc = s.pc ∧ t.dt.toNat = s.dt.toNat - 1 ∧
        t.st.toNat = s.st.toNat - 1)

/-- R123, R101 (decisions D14: no masking, and D2: a fetch outside memory is an error): BNNN sets PC to the integer NNN + V[0]; a target of 4095 or more makes the next fetch
run out of memory. -/
def Obligations.OffsetJumpAddsV0WithoutMasking : Prop :=
  ∀ (nnn : Addr) (s : State),
    ∃ t, exec (.opBNNN nnn) s = .next t ∧ t.pc.toNat = nnn.toNat + (s.readV 0).toNat ∧ SameExceptList [.pc] s t ∧
      (nnn.toNat + (s.readV 0).toNat = 4095 → fetch t = .error 4096) ∧
      (4096 ≤ nnn.toNat + (s.readV 0).toNat → fetch t = .error (nnn.toNat + (s.readV 0).toNat))

/-- R122, R28: with SP < 16, 2NNN pushes its own address and jumps. -/
def Obligations.CallPushesItsOwnAddress : Prop :=
  ∀ (nnn : Addr) (s : State) (h : s.sp.val < 16),
    ∃ t, exec (.op2NNN nnn) s = .next t ∧ t.stack[s.sp.val] = s.pc ∧ t.sp.val = s.sp.val + 1 ∧
      t.pc.toNat = nnn.toNat ∧ SameExceptList [.stackEntry ⟨s.sp.val, h⟩, .sp, .pc] s t

/-- R120, R28 (decision D17: the popped entry keeps its value): with SP > 0, 00EE pops into PC and adds 2. -/
def Obligations.ReturnPopsAndAddsTwo : Prop :=
  ∀ (s : State) (_ : 0 < s.sp.val) (k : Fin 16), k.val + 1 = s.sp.val →
    ∃ t, exec .op00EE s = .next t ∧ t.sp.val = k.val ∧ t.pc.toNat = (s.stack[k.val].toNat + 2) % 2 ^ 16 ∧
      SameExceptList [.sp, .pc] s t

/-- R120, R122, R200, R111 (decision D1: nothing of the step survives): a call with SP = 16 and a return with SP = 0 raise
their fault; beside FAULT and BEEP nothing changes. -/
def Obligations.FullAndEmptyStackRaiseTheirFault : Prop :=
  (∀ (nnn : Addr) (s : State), s.sp.val = 16 →
    ∃ t, exec (.op2NNN nnn) s = .next t ∧
      t.fault = some ⟨.stackOverflow, s.pc, some (encode (.op2NNN nnn)), (encode (.op2NNN nnn)).toNat⟩ ∧
      t.beep = false ∧ SameExceptList [.fault, .beep] s t) ∧
  (∀ s : State, s.sp.val = 0 →
    ∃ t, exec .op00EE s = .next t ∧ t.fault = some ⟨.stackUnderflow, s.pc, some 0x00EE, 0x00EE⟩ ∧
      t.beep = false ∧ SameExceptList [.fault, .beep] s t)

/-- R120, R122 (the source's call and return round trip): a return right after a call comes back to the word after the
call with the stack pointer restored. -/
def Obligations.CallThenReturnComesBackAfterTheCall : Prop :=
  ∀ (nnn : Addr) (s : State) (h : s.sp.val < 16),
    ∃ t u, exec (.op2NNN nnn) s = .next t ∧ exec .op00EE t = .next u ∧ u.pc = s.pc + 2 ∧ u.sp = s.sp ∧
      SameExceptList [.pc, .stackEntry ⟨s.sp.val, h⟩] s u

/-! ## Skips (R130 to R136) -/

/-- R130, R131: the skips on an immediate. -/
def Obligations.ImmediateSkipsMovePcAlone : Prop :=
  ∀ (x : Reg) (nn : Byte) (s : State),
    ((Instr.op3XNN x nn).EncodedAs 0xF000 0x3000 ∧
      ∃ t, exec (.op3XNN x nn) s = .next t ∧
        t.pc = (if (s.readV x).toNat = nn.toNat then s.pc + 4 else s.pc + 2) ∧ SameExceptList [.pc] s t) ∧
    ((Instr.op4XNN x nn).EncodedAs 0xF000 0x4000 ∧
      ∃ t, exec (.op4XNN x nn) s = .next t ∧
        t.pc = (if (s.readV x).toNat ≠ nn.toNat then s.pc + 4 else s.pc + 2) ∧ SameExceptList [.pc] s t)

/-- R132, R133: the skips on two registers; with X = Y, 5XY0 always skips and 9XY0 never does; a word of either family
with N ≠ 0 is an unknown opcode. That clause and the exact mask 0xF00F are the spec's decision D5 (assumption 9). -/
def Obligations.RegisterSkipsMovePcAlone : Prop :=
  (∀ (x y : Reg) (s : State),
    ((Instr.op5XY0 x y).EncodedAs 0xF00F 0x5000 ∧
      ∃ t, exec (.op5XY0 x y) s = .next t ∧
        t.pc = (if (s.readV x).toNat = (s.readV y).toNat then s.pc + 4 else s.pc + 2) ∧
        SameExceptList [.pc] s t ∧ (x = y → t.pc = s.pc + 4)) ∧
    ((Instr.op9XY0 x y).EncodedAs 0xF00F 0x9000 ∧
      ∃ t, exec (.op9XY0 x y) s = .next t ∧
        t.pc = (if (s.readV x).toNat ≠ (s.readV y).toNat then s.pc + 4 else s.pc + 2) ∧
        SameExceptList [.pc] s t ∧ (x = y → t.pc = s.pc + 2))) ∧
  (∀ op : Word, op &&& 0xF000 = 0x5000 ∨ op &&& 0xF000 = 0x9000 → op &&& 0x000F ≠ 0 →
    decode op = .error (.unknownOpcode op))

/-- R134, R135, R105 (decision D18: one sample a step): with a key number of 15 or less, EX9E and EXA1 read that key of the step's sample and move PC alone. -/
def Obligations.KeySkipsReadTheSampledKey : Prop :=
  ∀ (x : Reg) (s : State), (s.readV x).toNat ≤ 15 →
    (∃ t, exec (.opEX9E x) s = .next t ∧
      t.pc = (if s.keysIn.getLsbD (s.readV x).toNat then s.pc + 4 else s.pc + 2) ∧ SameExceptList [.pc] s t) ∧
    (∃ t, exec (.opEXA1 x) s = .next t ∧
      t.pc = (if s.keysIn.getLsbD (s.readV x).toNat then s.pc + 2 else s.pc + 4) ∧ SameExceptList [.pc] s t)

/-- R134, R135, R200, R111 (decisions D4, and D1: nothing of the step survives): a key number of 16 or more raises `KeyOutOfRange` with that number. -/
def Obligations.KeySkipsFaultOnABadKeyNumber : Prop :=
  ∀ (x : Reg) (s : State), 16 ≤ (s.readV x).toNat →
    (∃ t, exec (.opEX9E x) s = .next t ∧
      t.fault = some ⟨.keyOutOfRange, s.pc, some (encode (.opEX9E x)), (s.readV x).toNat⟩ ∧ t.beep = false ∧
      SameExceptList [.fault, .beep] s t) ∧
    (∃ t, exec (.opEXA1 x) s = .next t ∧
      t.fault = some ⟨.keyOutOfRange, s.pc, some (encode (.opEXA1 x)), (s.readV x).toNat⟩ ∧ t.beep = false ∧
      SameExceptList [.fault, .beep] s t)

/-! ## Registers and arithmetic (R140 to R153) -/

/-- R141, R143: 6XNN loads its immediate, 8XY0 copies a register; PC moves by 2 and nothing else changes. -/
def Obligations.LoadsWriteTheDestinationAlone : Prop :=
  (∀ (x : Reg) (nn : Byte) (s : State), (Instr.op6XNN x nn).EncodedAs 0xF000 0x6000 ∧
    ∃ t, exec (.op6XNN x nn) s = .next t ∧ t.readV x = nn ∧ t.pc = s.pc + 2 ∧ SameExceptList [.v x, .pc] s t) ∧
  (∀ (x y : Reg) (s : State), (Instr.op8XY0 x y).EncodedAs 0xF00F 0x8000 ∧
    ∃ t, exec (.op8XY0 x y) s = .next t ∧ t.readV x = s.readV y ∧ t.pc = s.pc + 2 ∧
      SameExceptList [.v x, .pc] s t ∧ (x = y → SameExceptList [.pc] s t))

/-- R142: 7XNN adds mod 256; VF keeps its value unless it is the destination. -/
def Obligations.AddImmediateWrapsWithoutAFlag : Prop :=
  ∀ (x : Reg) (nn : Byte) (s : State), (Instr.op7XNN x nn).EncodedAs 0xF000 0x7000 ∧
    ∃ t, exec (.op7XNN x nn) s = .next t ∧ (t.readV x).toNat = ((s.readV x).toNat + nn.toNat) % 256 ∧
      t.pc = s.pc + 2 ∧ SameExceptList [.v x, .pc] s t ∧ (x ≠ vf → t.readV vf = s.readV vf)

/-- R144, R145, R146 (decision D26: no flag): OR, AND and XOR bit by bit. -/
def Obligations.BitwiseOperationsActBitByBit : Prop :=
  ∀ (x y : Reg) (s : State),
    (∃ t, exec (.op8XY1 x y) s = .next t ∧
      (∀ k, k < 8 → (t.readV x).getLsbD k = ((s.readV x).getLsbD k || (s.readV y).getLsbD k)) ∧
      t.pc = s.pc + 2 ∧ SameExceptList [.v x, .pc] s t) ∧
    (∃ t, exec (.op8XY2 x y) s = .next t ∧
      (∀ k, k < 8 → (t.readV x).getLsbD k = ((s.readV x).getLsbD k && (s.readV y).getLsbD k)) ∧
      t.pc = s.pc + 2 ∧ SameExceptList [.v x, .pc] s t) ∧
    (∃ t, exec (.op8XY3 x y) s = .next t ∧
      (∀ k, k < 8 → (t.readV x).getLsbD k = ((s.readV x).getLsbD k ^^ (s.readV y).getLsbD k)) ∧
      t.pc = s.pc + 2 ∧ SameExceptList [.v x, .pc] s t)

/-- R147, R140 (decision D9 for X = F: the result stays): 8XY4 in integers, on the operands' values before any write. -/
def Obligations.AddReportsCarryInVF : Prop :=
  ∀ (x y : Reg) (s : State),
    ∃ t, exec (.op8XY4 x y) s = .next t ∧
      (t.readV x).toNat = ((s.readV x).toNat + (s.readV y).toNat) % 256 ∧
      (x ≠ vf → t.readV vf = if (s.readV x).toNat + (s.readV y).toNat > 255 then 1 else 0) ∧
      t.pc = s.pc + 2 ∧ SameExceptList [.v x, .v vf, .pc] s t

/-- R148, R150, R140 (decision D9 for X = F: the result stays): 8XY5 and 8XY7 in integers; VF is NOT borrow. -/
def Obligations.SubtractionsReportNoBorrowInVF : Prop :=
  ∀ (x y : Reg) (s : State),
    (∃ t, exec (.op8XY5 x y) s = .next t ∧
      ((t.readV x).toNat : Int) = ((s.readV x).toNat - (s.readV y).toNat : Int) % 256 ∧
      (x ≠ vf → t.readV vf = if (s.readV y).toNat > (s.readV x).toNat then 0 else 1) ∧
      t.pc = s.pc + 2 ∧ SameExceptList [.v x, .v vf, .pc] s t) ∧
    (∃ t, exec (.op8XY7 x y) s = .next t ∧
      ((t.readV x).toNat : Int) = ((s.readV y).toNat - (s.readV x).toNat : Int) % 256 ∧
      (x ≠ vf → t.readV vf = if (s.readV x).toNat > (s.readV y).toNat then 0 else 1) ∧
      t.pc = s.pc + 2 ∧ SameExceptList [.v x, .v vf, .pc] s t)

/-- R149, R151, R140 (decision D9 for X = F: the result stays): the shifts of V[X] by one; field Y has no effect. -/
def Obligations.ShiftsReportTheDroppedBitInVF : Prop :=
  ∀ (x y : Reg) (s : State),
    (∃ t, exec (.op8XY6 x y) s = .next t ∧
      (t.readV x).toNat = (s.readV x).toNat / 2 ∧
      (x ≠ vf → (t.readV vf).toNat = (s.readV x).toNat % 2) ∧
      t.pc = s.pc + 2 ∧ SameExceptList [.v x, .v vf, .pc] s t) ∧
    (∃ t, exec (.op8XYE x y) s = .next t ∧
      (t.readV x).toNat = (s.readV x).toNat * 2 % 256 ∧
      (x ≠ vf → (t.readV vf).toNat = (s.readV x).toNat / 128) ∧
      t.pc = s.pc + 2 ∧ SameExceptList [.v x, .v vf, .pc] s t)

/-- R152 (decision D13), for EVERY random byte: CXNN writes this step's byte under the mask. The field that holds the byte
is a free value (assumption 3); no clause rests on its value. -/
def Obligations.RandomByteIsMasked : Prop :=
  ∀ (x : Reg) (nn b : Byte) (s : State),
    ∃ t, exec (.opCXNN x nn) (setRandom b s) = .next t ∧
      (∀ k, k < 8 → (t.readV x).getLsbD k = (b.getLsbD k && nn.getLsbD k)) ∧
      t.pc = s.pc + 2 ∧ SameExceptList [.v x, .pc] (setRandom b s) t

/-- R103, R104: execute reads `RND_IN` only for CXNN: for every other instruction, changing the byte changes nothing else. -/
def Obligations.OnlyCXNNReadsTheRandomByte : Prop :=
  ∀ (i : Instr) (s t : State) (b : Byte), i.mnemonic ≠ "CXNN" → exec i s = .next t →
    exec i (setRandom b s) = .next (setRandom b t)

/-- R34, R35, R105 (decisions D18, D10): only EX9E, EXA1 and FX0A read the keypad sample, and only FX0A the previous one. -/
def Obligations.OnlyKeyInstructionsReadTheKeypad : Prop :=
  ∀ (i : Instr) (s t : State) (keys prev : Word), exec i s = .next t →
    (i.mnemonic ∉ ["EX9E", "EXA1", "FX0A"] →
      exec i { s with keysIn := keys, kprev := prev } = .next { t with keysIn := keys, kprev := prev }) ∧
    (i.mnemonic ≠ "FX0A" → exec i { s with kprev := prev } = .next { t with kprev := prev })

/-! ## Index register and memory blocks (R160 to R166) -/

/-- R160, R162: ANNN loads I, FX29 points it at the glyph of the low nibble. -/
def Obligations.IndexLoadsWriteIndexAlone : Prop :=
  (∀ (nnn : Addr) (s : State), (Instr.opANNN nnn).EncodedAs 0xF000 0xA000 ∧
    ∃ t, exec (.opANNN nnn) s = .next t ∧ t.i.toNat = nnn.toNat ∧ t.pc = s.pc + 2 ∧ SameExceptList [.i, .pc] s t) ∧
  (∀ (x : Reg) (s : State), (Instr.opFX29 x).EncodedAs 0xF0FF 0xF029 ∧
    ∃ t, exec (.opFX29 x) s = .next t ∧ t.i.toNat = 5 * ((s.readV x).toNat % 16) ∧ t.pc = s.pc + 2 ∧
      SameExceptList [.i, .pc] s t)

/-- R161 (decisions D3 for a sum above 0xFFFF, D26: VF is not written, D1: nothing of a faulting step survives;
assumption 9): FX1E adds without masking, and raises `IndexOverflow` with the sum when it
does not fit; VF is not written. -/
def Obligations.AddToIndexIsExactOrFaults : Prop :=
  ∀ (x : Reg) (s : State),
    (s.i.toNat + (s.readV x).toNat ≤ 0xFFFF →
      ∃ t, exec (.opFX1E x) s = .next t ∧ t.i.toNat = s.i.toNat + (s.readV x).toNat ∧ t.pc = s.pc + 2 ∧
        SameExceptList [.i, .pc] s t) ∧
    (0xFFFF < s.i.toNat + (s.readV x).toNat →
      ∃ t, exec (.opFX1E x) s = .next t ∧
        t.fault = some ⟨.indexOverflow, s.pc, some (encode (.opFX1E x)), s.i.toNat + (s.readV x).toNat⟩ ∧
        t.beep = false ∧ SameExceptList [.fault, .beep] s t)

/-- R163: FX33 with its three bytes inside memory stores hundreds, tens and ones at I, I + 1, I + 2 and no other byte. -/
def Obligations.DecimalDigitsAreStoredAtIndex : Prop :=
  ∀ (x : Reg) (s : State), s.mem.wf = true → s.dataAddr + 2 < 4096 →
    ∃ t, exec (.opFX33 x) s = .next t ∧
      (Memory.read t.mem s.dataAddr).toNat = (s.readV x).toNat / 100 ∧
      (Memory.read t.mem (s.dataAddr + 1)).toNat = (s.readV x).toNat / 10 % 10 ∧
      (Memory.read t.mem (s.dataAddr + 2)).toNat = (s.readV x).toNat % 10 ∧
      t.pc = s.pc + 2 ∧
      SameExcept (fun c => c = .pc ∨ ∃ k, k < 3 ∧ c = .memByte (s.dataAddr + k)) s t

/-- R164 (decision D15: I unchanged): FX55 with its bytes inside memory stores V[0]..V[X] from I up and no other byte. -/
def Obligations.RegistersAreStoredAtIndex : Prop :=
  ∀ (x : Reg) (s : State), s.mem.wf = true → s.dataAddr + x.val < 4096 →
    ∃ t, exec (.opFX55 x) s = .next t ∧
      (∀ r : Reg, r ≤ x → Memory.read t.mem (s.dataAddr + r.val) = s.readV r) ∧
      t.pc = s.pc + 2 ∧
      SameExcept (fun c => c = .pc ∨ ∃ k, k ≤ x.val ∧ c = .memByte (s.dataAddr + k)) s t

/-- R165 (decision D15: I unchanged): FX65 with its bytes inside memory loads V[0]..V[X] from I up and no other register. -/
def Obligations.RegistersAreLoadedFromIndex : Prop :=
  ∀ (x : Reg) (s : State), s.dataAddr + x.val < 4096 →
    ∃ t, exec (.opFX65 x) s = .next t ∧
      (∀ r : Reg, r ≤ x → t.readV r = Memory.read s.mem (s.dataAddr + r.val)) ∧
      t.pc = s.pc + 2 ∧
      SameExcept (fun c => c = .pc ∨ ∃ r : Reg, r ≤ x ∧ c = .v r) s t

/-- R56, R163, R164, R165, R171 (decisions D2, and D1: nothing of the step survives): an access of FX33, FX55, FX65 or DXYN that reaches past 4095 raises
`MemoryOutOfBounds` with the lowest address outside memory, and nothing is written. -/
def Obligations.BlockAccessOutsideMemoryFaults : Prop :=
  ∀ (i : Instr) (len : Nat) (s : State),
    ((∃ x, i = .opFX33 x ∧ len = 3) ∨ (∃ x, i = .opFX55 x ∧ len = x.val + 1) ∨
      (∃ x, i = .opFX65 x ∧ len = x.val + 1) ∨ (∃ x y n, i = .opDXYN x y n ∧ len = n.toNat ∧ 0 < n.toNat)) →
    4096 < s.dataAddr + len →
    ∃ t a, exec i s = .next t ∧ 4096 ≤ a ∧ s.dataAddr ≤ a ∧ a < s.dataAddr + len ∧
      (∀ b, s.dataAddr ≤ b → b < a → b < 4096) ∧
      t.fault = some ⟨.memoryOutOfBounds, s.pc, some (encode i), a⟩ ∧ t.beep = false ∧
      SameExceptList [.fault, .beep] s t

/-- R164, R165: what FX55 stores, FX65 from the same I loads back, whatever else changed in between but memory and I. -/
def Obligations.StoredRegistersLoadBack : Prop :=
  ∀ (x : Reg) (s u : State), s.mem.wf = true → s.dataAddr + x.val < 4096 →
    ∃ t, exec (.opFX55 x) s = .next t ∧ (u.mem = t.mem → u.i = t.i →
      ∃ w, exec (.opFX65 x) u = .next w ∧ ∀ r : Reg, r ≤ x → w.readV r = s.readV r)

/-- R63, R52 (decision D21): the bytes that FX55 stores are the word that a fetch at I sees, high byte first. -/
def Obligations.StoredBytesAreFetched : Prop :=
  ∀ (x : Reg) (s : State), s.mem.wf = true → 1 ≤ x.val → s.dataAddr + x.val < 4096 →
    ∃ t, exec (.opFX55 x) s = .next t ∧ ∃ op, fetch (t.jump s.i) = .ok op ∧
      op.toNat = (s.readV 0).toNat * 256 + (s.readV 1).toNat

/-! ## Display (R170 to R174) -/

/-- R170 (conflict C4): 00E0 clears every pixel and sets RD; VF is not written. That its word is 0x00E0 exactly is the
spec's decision D5 (assumption 9). -/
def Obligations.ClearScreenClearsEveryPixel : Prop :=
  ∀ s : State, (∀ op : Word, decode op = .ok .op00E0 ↔ op = 0x00E0) ∧
    ∃ t, exec .op00E0 s = .next t ∧ (∀ (x : Fin 64) (y : Fin 32), t.fb.pixel x y = false) ∧ t.rd = true ∧
      t.pc = s.pc + 2 ∧ SameExcept (fun c => c = .pc ∨ c = .rd ∨ ∃ x y, c = .pixel x y) s t

/-- R171, R172, R173 (decisions D6, D7, D8): with its sprite bytes inside memory, DXYN flips exactly the on-screen pixels
that the sprite covers; VF is 1 when one of them went from 1 to 0, else 0; RD is set. -/
def Obligations.DrawFlipsTheCoveredPixels : Prop :=
  ∀ (x y : Reg) (n : Nibble) (s : State), n = 0 ∨ s.dataAddr + n.toNat ≤ 4096 →
    ∃ t, exec (.opDXYN x y n) s = .next t ∧
      (∀ (px : Fin 64) (py : Fin 32),
        t.fb.pixel px py ≠ s.fb.pixel px py ↔ s.covers (s.readV x).toNat (s.readV y).toNat n.toNat px py) ∧
      ((∃ (px : Fin 64) (py : Fin 32), s.fb.pixel px py = true ∧ t.fb.pixel px py = false) → t.readV vf = 1) ∧
      ((¬ ∃ (px : Fin 64) (py : Fin 32), s.fb.pixel px py = true ∧ t.fb.pixel px py = false) → t.readV vf = 0) ∧
      t.rd = true ∧ t.pc = s.pc + 2 ∧
      SameExcept (fun c => c = .pc ∨ c = .rd ∨ c = .v vf ∨ ∃ px py, c = .pixel px py) s t

/-- R174 (the covered pixels by decisions D6 and D7): the same sprite drawn twice (X and Y not F) restores every pixel, and the second draw writes VF = 1 exactly when
some covered on-screen pixel was 0 before the first. -/
def Obligations.DrawingTwiceRestoresTheScreen : Prop :=
  ∀ (x y : Reg) (n : Nibble) (s : State), x ≠ vf → y ≠ vf → n = 0 ∨ s.dataAddr + n.toNat ≤ 4096 →
    ∃ t u, exec (.opDXYN x y n) s = .next t ∧ exec (.opDXYN x y n) t = .next u ∧ u.fb = s.fb ∧
      (u.readV vf = 1 ↔ ∃ (px : Fin 64) (py : Fin 32),
        s.covers (s.readV x).toNat (s.readV y).toNat n.toNat px py ∧ s.fb.pixel px py = false)

/-- R171, its pseudocode's two loops (clipping by decision D6, bit 7 leftmost by decision D7; assumption 6 for the row
word): drawing whole rows at once gives the framebuffer and the collision that the loop over
rows and columns gives, one pixel at a time. -/
def Obligations.RowDrawingMatchesThePixelLoop : Prop :=
  ∀ (fb : Framebuffer) (rows : List Byte) (x0 y0 : Nat),
    pixelLoop rows x0 y0 (fb, false) = (fb.xorSprite rows x0 y0, fb.collides rows x0 y0)

/-! ## Timers and keys (R180 to R184), by whole steps -/

/-- R181, R109: FX07 gives V[X] the value of DT before the step's own tick, and completes with nothing else changed. -/
def Obligations.ReadDelayTimerSeesTheValueBeforeTheTick : Prop :=
  (∀ (x : Reg) (s : State), (Instr.opFX07 x).EncodedAs 0xF0FF 0xF007 ∧
    ∃ t, exec (.opFX07 x) s = .next t ∧ t.readV x = s.dt ∧ t.pc = s.pc + 2 ∧ SameExceptList [.v x, .pc] s t) ∧
  (∀ (x : Reg) (s : State), s.Fetches (.opFX07 x) →
    ∃ t, step s = .next t ∧ t.fault = none ∧ t.readV x = s.dt ∧ t.pc = s.pc + 2 ∧
      (s.dt ≠ 0 → (t.readV x).toNat = t.dt.toNat + 1) ∧ (s.dt = 0 → t.readV x = 0 ∧ t.dt = 0))

/-- R183, R109: FX15 sets DT, and its own step's tick counts it down once. -/
def Obligations.SetDelayTimerIsTickedInItsOwnStep : Prop :=
  (∀ (x : Reg) (s : State), (Instr.opFX15 x).EncodedAs 0xF0FF 0xF015 ∧
    ∃ t, exec (.opFX15 x) s = .next t ∧ t.dt = s.readV x ∧ t.pc = s.pc + 2 ∧ SameExceptList [.dt, .pc] s t) ∧
  (∀ (x : Reg) (s : State), s.Fetches (.opFX15 x) →
    ∃ t, step s = .next t ∧ t.fault = none ∧ t.pc = s.pc + 2 ∧ t.dt.toNat = (s.readV x).toNat - 1)

/-- R184, R109, R38: FX18 sets ST; its own step's tick counts it down once and beeps when V[X] = 1; a later step that does
not reload ST counts it down and beeps only when it goes from 1 to 0. -/
def Obligations.SetSoundTimerBeepsOnOneToZero : Prop :=
  (∀ (x : Reg) (s : State), (Instr.opFX18 x).EncodedAs 0xF0FF 0xF018 ∧
    ∃ t, exec (.opFX18 x) s = .next t ∧ t.st = s.readV x ∧ t.pc = s.pc + 2 ∧ SameExceptList [.st, .pc] s t) ∧
  (∀ (x : Reg) (s : State), s.Fetches (.opFX18 x) →
    ∃ t, step s = .next t ∧ t.fault = none ∧ t.pc = s.pc + 2 ∧ t.st.toNat = (s.readV x).toNat - 1 ∧
      (t.beep = true ↔ (s.readV x).toNat = 1)) ∧
  (∀ s t : State, step s = .next t → t.fault = none → (¬ ∃ x, s.Fetches (.opFX18 x)) →
    t.st.toNat = s.st.toNat - 1 ∧ (t.beep = true ↔ s.st.toNat = 1))

/-- R182 (decision D10: which key is new, and the lowest): FX0A with a new key completes at once with the lowest one; with
none it enters `AwaitingKey(X)` and leaves PC alone. -/
def Obligations.WaitForKeyCompletesOrWaits : Prop :=
  ∀ (x : Reg) (s : State),
    (∀ k : Nat, k < 16 → s.keysIn.getLsbD k = true → s.kprev.getLsbD k = false →
      (∀ j, j < k → s.keysIn.getLsbD j = true → s.kprev.getLsbD j = true) →
      ∃ t, exec (.opFX0A x) s = .next t ∧ (t.readV x).toNat = k ∧ t.pc = s.pc + 2 ∧ SameExceptList [.v x, .pc] s t) ∧
    ((∀ k, k < 16 → s.keysIn.getLsbD k = true → s.kprev.getLsbD k = true) →
      ∃ t, exec (.opFX0A x) s = .next t ∧ t.wait = .awaitingKey x ∧ SameExceptList [.wait] s t)

/-- R107, R108, R110, R204 (decision D10): a step in `AwaitingKey(x)` does not fetch and cannot fault; it completes with the
lowest new key or stays, and the timers tick either way. -/
def Obligations.KeyWaitStepChecksForANewKey : Prop :=
  ∀ (x : Reg) (s : State), s.fault = none → s.wait = .awaitingKey x →
    ∃ t, step s = .next t ∧ t.fault = none ∧ t.dt.toNat = s.dt.toNat - 1 ∧ t.st.toNat = s.st.toNat - 1 ∧
      (t.beep = true ↔ s.st.toNat = 1) ∧ t.kprev = s.keysIn ∧
      (∀ k : Nat, k < 16 → s.keysIn.getLsbD k = true → s.kprev.getLsbD k = false →
        (∀ j, j < k → s.keysIn.getLsbD j = true → s.kprev.getLsbD j = true) →
        (t.readV x).toNat = k ∧ t.wait = .running ∧ t.pc = s.pc + 2) ∧
      ((∀ k, k < 16 → s.keysIn.getLsbD k = true → s.kprev.getLsbD k = true) →
        t.readV x = s.readV x ∧ t.wait = .awaitingKey x ∧ t.pc = s.pc) ∧
      SameExceptList [.v x, .pc, .wait, .dt, .st, .beep, .kprev, .rndIn, .draws, .loadOpen] s t

/-! ## The step cycle (R100 to R113) and the faults (R200 to R214) -/

/-- R100, R103, R108, R110, R111: when the word at PC decodes to `i`, the step is the execution of `i` with BEEP cleared;
if it raises no fault the timers tick and KPREV takes the sample; if it does, only the record and BEEP = 0 survive. -/
def Obligations.StepRunsTheDecodedInstruction : Prop :=
  ∀ (i : Instr) (s t : State), s.Fetches i → exec i { s with beep := false } = .next t →
    (t.fault = none → ∃ u, step s = .next u ∧
      u.v = t.v ∧ u.i = t.i ∧ u.pc = t.pc ∧ u.stack = t.stack ∧ u.sp = t.sp ∧ u.mem = t.mem ∧ u.fb = t.fb ∧
      u.wait = t.wait ∧ u.rd = t.rd ∧ u.fault = none ∧ u.keysIn = t.keysIn ∧
      u.dt = (if t.dt = 0 then 0 else t.dt - 1) ∧ u.st = (if t.st = 0 then 0 else t.st - 1) ∧
      u.beep = (t.beep || t.st == 1) ∧ u.kprev = t.keysIn) ∧
    (∀ r, t.fault = some r → step s = .next { s with fault := some r, beep := false })

/-- R76, R102, R111, R200 (decisions D1: nothing of the step survives beside FAULT and BEEP = 0, and D5: the exact masks;
assumption 9): a step whose word is no instruction raises `UnknownOpcode` with the exact word. -/
def Obligations.IllegalWordFaultsWithTheWord : Prop :=
  ∀ (s : State) (op : Word), s.fault = none → s.wait = .running → fetch s = .ok op → wellFormedWord op = false →
    step s = .next { s with fault := some ⟨.unknownOpcode, s.pc, some op, op.toNat⟩, beep := false }

/-- R101, R52, R53, R111 (decisions D2, D16, and D1: no tick, no KPREV update and BEEP = 0 in a faulting step; assumption
9): a fetch at PC = 4095 raises `MemoryOutOfBounds(4096)`, at PC ≥ 4096 `MemoryOutOfBounds(PC)`,
with no opcode in the record; below 4095, odd or even, it reads two bytes big-endian. -/
def Obligations.FetchFaultsOutsideMemory : Prop :=
  ∀ s : State, s.fault = none → s.wait = .running →
    (s.pc.toNat = 4095 →
      step s = .next { s with fault := some ⟨.memoryOutOfBounds, s.pc, none, 4096⟩, beep := false }) ∧
    (4096 ≤ s.pc.toNat →
      step s = .next { s with fault := some ⟨.memoryOutOfBounds, s.pc, none, s.pc.toNat⟩, beep := false }) ∧
    (s.pc.toNat < 4095 → ∃ op, fetch s = .ok op ∧
      op.toNat = (Memory.read s.mem s.pc.toNat).toNat * 256 + (Memory.read s.mem (s.pc.toNat + 1)).toNat)

/-- R106, R206 (decision D1; assumption 1: the outcome's name is the model's): a faulted engine has no step, and no state
changes however often the host calls *step*. -/
def Obligations.FaultedEngineHasNoStep : Prop :=
  ∀ (s : State) (r : FaultRecord), s.fault = some r →
    step s = .fault (.halted r) ∧ ∀ n, hostRun (List.replicate n .step) s = s

/-- R214: an engine that is not faulted always has a step. -/
def Obligations.UnfaultedEngineAlwaysSteps : Prop :=
  ∀ s : State, s.fault = none → ∃ t, step s = .next t

/-- R111, R205 (decision D1): a step that faults leaves the state before it but for FAULT and BEEP; the record's pc is the
step's PC. -/
def Obligations.FaultsArePrecise : Prop :=
  ∀ (s t : State) (r : FaultRecord), step s = .next t → t.fault = some r →
    t = { s with fault := some r, beep := false } ∧ r.pc = s.pc

/-- R204, R200 (decisions D2, D3, D4): an instruction raises only its own kind of fault, with its own word in the record,
and the record is as R200 describes. -/
def Obligations.InstructionsRaiseOnlyTheirOwnFault : Prop :=
  ∀ (i : Instr) (s t : State) (r : FaultRecord), s.fault = none → exec i s = .next t → t.fault = some r →
    i.ownFault = some r.kind ∧ r.op = some (encode i) ∧ r.pc = s.pc ∧ r.asSpecified

/-- R29, R108, R110, R34: every step that does not fault counts DT down unless it fetched FX15, and records the keypad
sample; no step changes the keypad vector. -/
def Obligations.CompletedStepTicksAndRecordsKeys : Prop :=
  ∀ s t : State, step s = .next t → t.fault = none →
    ((¬ ∃ x, s.Fetches (.opFX15 x)) → t.dt.toNat = s.dt.toNat - 1) ∧ t.kprev = s.keysIn ∧ t.keysIn = s.keysIn

/-- R33, R37 (conflict C4, decision D12): a step changes a pixel only by 00E0 or DXYN, sets RD only by those, and never
clears RD. -/
def Obligations.OnlyDisplayInstructionsTouchTheScreen : Prop :=
  ∀ s t : State, step s = .next t →
    (s.rd = true → t.rd = true) ∧
      ((t.fb ≠ s.fb ∨ t.rd ≠ s.rd) → s.Fetches .op00E0 ∨ ∃ x y n, s.Fetches (.opDXYN x y n))

/-- R51, R55: a step changes a byte of memory only by FX33 or FX55, and only inside the block that they store to. -/
def Obligations.OnlyStoresWriteMemory : Prop :=
  ∀ (s t : State) (a : Nat), step s = .next t → Memory.read t.mem a ≠ Memory.read s.mem a →
    (∃ x, s.Fetches (.opFX33 x) ∧ s.dataAddr ≤ a ∧ a < s.dataAddr + 3) ∨
      ∃ x, s.Fetches (.opFX55 x) ∧ s.dataAddr ≤ a ∧ a ≤ s.dataAddr + x.val

/-- R26, R27, R28: a step changes the stack or SP only by 2NNN or 00EE, an entry only by 2NNN, and I only by ANNN, FX1E or
FX29. -/
def Obligations.OnlyTheirWritersChangeStackAndIndex : Prop :=
  ∀ s t : State, step s = .next t →
    (t.stack ≠ s.stack → ∃ nnn, s.Fetches (.op2NNN nnn)) ∧
      (t.sp ≠ s.sp → s.Fetches .op00EE ∨ ∃ nnn, s.Fetches (.op2NNN nnn)) ∧
      (t.i ≠ s.i → (∃ nnn, s.Fetches (.opANNN nnn)) ∨ (∃ x, s.Fetches (.opFX1E x)) ∨ ∃ x, s.Fetches (.opFX29 x))

/-- R20, R21, R22 (decision D26): the execution of an instruction changes a register only when it names it as a
destination, or the register is VF and the instruction is one of the six that write a flag. -/
def Obligations.RegistersChangeOnlyAsDestinationOrFlag : Prop :=
  ∀ (i : Instr) (s t : State) (r : Reg), exec i s = .next t → t.readV r ≠ s.readV r →
    i.namesDestination r ∨ (r = vf ∧ i.writesFlag)

/-! ## Invariants -/

/-- Every step keeps the invariant: memory in its canonical form, PC at most 0x10FE (R25), stack entries at most 4094
(R120), the key-wait at its FX0A (R107), fault records as R200 and R111 say. -/
def Obligations.StepKeepsTheInvariant : Prop :=
  ∀ s t : State, Inv s → step s = .next t → Inv t

/-- The engine after construction meets the invariant. -/
def Obligations.ResetMeetsTheInvariant : Prop := Inv State.reset

/-- Every act of the host (a load, a keypad vector, a random byte, a redraw clear, a step) keeps the invariant from every
state that meets it, and keeps a recorded fault (R39, R106; decision D1); so from construction with any font, after any
acts of the host, the invariant holds, and once a fault is recorded no further act changes the record. -/
def Obligations.EveryHostRunKeepsTheInvariant : Prop :=
  (∀ (e : HostEvent) (s : State), Inv s → Inv (hostDo e s)) ∧
    (∀ (e : HostEvent) (s : State) (r : FaultRecord), s.fault = some r → (hostDo e s).fault = some r) ∧
    ∀ (font : Vector Byte 80) (es : List HostEvent), Inv (hostRun es (construct font)) ∧
      ∀ r, (hostRun es (construct font)).fault = some r →
        ∀ es', (hostRun es' (hostRun es (construct font))).fault = some r

/-! ## Host interface and reset -/

/-- R42, R201 (decision D19; assumption 5: how the model knows that a load is admitted): before the first step an image of
at most 3584 bytes is written from 512 up, with PC and every other byte unchanged, and a longer one changes nothing; after
a load or a step none is admitted. -/
def Obligations.LoadWritesTheImageOnceBeforeTheFirstStep : Prop :=
  ∀ (bytes : List Byte) (s : State), s.mem.wf = true → s.loadOpen = true → s.fault = none →
    (bytes.length ≤ 3584 → ∃ t, loadApplication bytes s = .loaded t ∧
      (∀ (k : Nat) (h : k < bytes.length), Memory.read t.mem (512 + k) = bytes[k]) ∧
      SameExcept (fun c => c = .loadOpen ∨ ∃ k, k < bytes.length ∧ c = .memByte (512 + k)) s t ∧
      ∀ again, loadApplication again t = .notAdmitted) ∧
    (3584 < bytes.length → loadApplication bytes s = .romTooLarge ∧ hostDo (.load bytes) s = s) ∧
    (∀ t, step s = .next t → loadApplication bytes t = .notAdmitted)

/-- R43, R44, R41: set-keypad, the random input and clear-redraw change their own field alone. -/
def Obligations.HostInputsChangeTheirOwnFieldAlone : Prop :=
  ∀ (keys : Word) (b : Byte) (s : State),
    ((hostDo (.setKeypad keys) s).keysIn = keys ∧ SameExceptList [.keysIn] s (hostDo (.setKeypad keys) s)) ∧
      ((hostDo (.setRandom b) s).rndIn = b ∧ SameExceptList [.rndIn] s (hostDo (.setRandom b) s)) ∧
      ((hostDo .clearRedraw s).rd = false ∧ SameExceptList [.rd] s (hostDo .clearRedraw s))

/-- R220, R221, R32 (for EVERY font; assumption 4 for the default bytes): the state after construction, field by field; the
font at 0..79 and 0 above it; with the default font it is the reset state. -/
def Obligations.ConstructionGivesTheResetState : Prop :=
  (∀ font : Vector Byte 80,
    (∀ r, (construct font).readV r = 0) ∧ (construct font).pc = 512 ∧ (construct font).i = 0 ∧
      (∀ k : Fin 16, (construct font).stack[k.val] = 0) ∧ (construct font).sp = 0 ∧ (construct font).dt = 0 ∧
      (construct font).st = 0 ∧ (∀ (a : Nat) (h : a < 80), Memory.read (construct font).mem a = font[a]) ∧
      (∀ a, 80 ≤ a → Memory.read (construct font).mem a = 0) ∧
      (∀ (x : Fin 64) (y : Fin 32), (construct font).fb.pixel x y = false) ∧ (construct font).keysIn = 0 ∧
      (construct font).kprev = 0 ∧ (construct font).wait = .running ∧ (construct font).rd = true ∧
      (construct font).beep = false ∧ (construct font).fault = none) ∧
    (∀ font : Vector Byte 80, font.toList = fontDefault → construct font = State.reset)

/-- R222, R76 (decision D5: 0x0000 is illegal): the engine stepped right after construction, with no image, raises `UnknownOpcode(0x0000)` at 512. -/
def Obligations.FirstStepWithoutAnImageFaults : Prop :=
  ∀ font : Vector Byte 80, (hostRun [.step] (construct font)).fault = some ⟨.unknownOpcode, 0x200, some 0x0000, 0⟩
end

