-- ==== Sys2Proof/Laws/Memory.lean ====
section
/-! SUPPORT. The laws of memory: the canonical form is kept, a read after a write, equal memories are equal data, and the
closed form of the bounds check. -/

namespace Sys2Proof.Machine

/-- The canonical form from `lo` up is one from any lower address. -/
theorem Memory.wfFrom_mono {lo lo' : Nat} (h : lo' ≤ lo) {m : Memory} (hm : Memory.wfFrom lo m = true) :
    Memory.wfFrom lo' m = true := by
  cases m with
  | nil => rfl
  | cons c m =>
    simp only [Memory.wfFrom, Bool.and_eq_true, decide_eq_true_eq] at hm ⊢
    exact ⟨⟨⟨by omega, hm.1.1.2⟩, hm.1.2⟩, hm.2⟩

/-- Below its first possible entry a canonical memory lists nothing. -/
theorem Memory.read_below {lo a : Nat} (h : a < lo) {m : Memory} (hm : Memory.wfFrom lo m = true) :
    Memory.read m a = Memory.resetByte a := by
  induction m generalizing lo with
  | nil => rfl
  | cons c m ih =>
    simp only [Memory.wfFrom, Bool.and_eq_true, decide_eq_true_eq] at hm
    simp only [Memory.read, show a ≠ c.1 by omega, if_false]
    exact ih (by omega) hm.2

/-- Outside 0..4095 a canonical memory lists nothing. -/
theorem Memory.read_outside {lo a : Nat} (h : Config.memSize ≤ a) {m : Memory} (hm : Memory.wfFrom lo m = true) :
    Memory.read m a = Memory.resetByte a := by
  induction m generalizing lo with
  | nil => rfl
  | cons c m ih =>
    simp only [Memory.wfFrom, Bool.and_eq_true, decide_eq_true_eq] at hm
    simp only [Memory.read, show a ≠ c.1 by omega, if_false]
    exact ih hm.2

/-- A write of another address leaves a byte as it was. -/
theorem Memory.read_write_ne (m : Memory) {a c : Nat} (h : c ≠ a) (b : Byte) :
    Memory.read (Memory.write m a b) c = Memory.read m c := by
  induction m with
  | nil => by_cases hb : b = Memory.resetByte a <;> simp [Memory.write, Memory.read, hb, h]
  | cons e m ih =>
    simp only [Memory.write]
    split
    · split <;> simp [Memory.read, h]
    · split
      · next _ hae =>
        split <;> simp [Memory.read, h, ← hae]
      · simp [Memory.read, ih]

/-- A read after a write to the same address gives the byte written. -/
theorem Memory.read_write_same {lo a : Nat} {m : Memory} (hm : Memory.wfFrom lo m = true) (b : Byte) :
    Memory.read (Memory.write m a b) a = b := by
  induction m generalizing lo with
  | nil => by_cases hb : b = Memory.resetByte a <;> simp [Memory.write, Memory.read, hb]
  | cons e m ih =>
    have hm' := hm
    simp only [Memory.wfFrom, Bool.and_eq_true, decide_eq_true_eq] at hm
    simp only [Memory.write]
    split
    · split
      · next hlt hb =>
        simp only [Memory.read, show a ≠ e.1 by omega, if_false]
        rw [Memory.read_below (by omega) hm.2, hb]
      · simp [Memory.read]
    · split
      · next hae =>
        split
        · next hb => rw [Memory.read_below (by omega) hm.2, hb]
        · simp [Memory.read]
      · next hae => simp [Memory.read, hae, ih hm.2]

/-- A read after a write, with `a` anywhere. -/
theorem Memory.read_write {m : Memory} (hm : m.wf = true) (a c : Nat) (b : Byte) :
    Memory.read (Memory.write m a b) c = if c = a then b else Memory.read m c := by
  split
  · next h => rw [h]; exact Memory.read_write_same hm b
  · next h => exact Memory.read_write_ne m h b

theorem Memory.wfFrom_write {lo a : Nat} {m : Memory} (hm : Memory.wfFrom lo m = true) (hlo : lo ≤ a)
    (ha : a < Config.memSize) (b : Byte) : Memory.wfFrom lo (Memory.write m a b) = true := by
  induction m generalizing lo with
  | nil => by_cases hb : b = Memory.resetByte a <;> simp_all [Memory.write, Memory.wfFrom]
  | cons e m ih =>
    have hm' := hm
    simp only [Memory.wfFrom, Bool.and_eq_true, decide_eq_true_eq, bne_iff_ne] at hm
    simp only [Memory.write]
    split
    · split
      · exact hm'
      · next hlt hb =>
        simp only [Memory.wfFrom, Bool.and_eq_true, decide_eq_true_eq, bne_iff_ne]
        exact ⟨⟨⟨hlo, ha⟩, hb⟩, ⟨⟨by omega, hm.1.1.2⟩, hm.1.2⟩, hm.2⟩
    · split
      · next hae =>
        split
        · exact Memory.wfFrom_mono (by omega) hm.2
        · next hb =>
          simp only [Memory.wfFrom, Bool.and_eq_true, decide_eq_true_eq, bne_iff_ne]
          exact ⟨⟨⟨hlo, ha⟩, hb⟩, by rw [hae]; exact hm.2⟩
      · simp only [Memory.wfFrom, Bool.and_eq_true, decide_eq_true_eq, bne_iff_ne]
        exact ⟨hm.1, ih hm.2 (by omega)⟩

/-- A write inside memory keeps the canonical form. -/
theorem Memory.wf_write {m : Memory} (hm : m.wf = true) {a : Nat} (ha : a < Config.memSize) (b : Byte) :
    (Memory.write m a b).wf = true :=
  Memory.wfFrom_write hm (Nat.zero_le a) ha b

/-- A block write inside memory keeps the canonical form. -/
theorem Memory.wf_storeAll {m : Memory} (hm : m.wf = true) {a : Nat} {bs : List Byte}
    (h : a + bs.length ≤ Config.memSize) : (Memory.storeAll m a bs).wf = true := by
  induction bs generalizing m a with
  | nil => exact hm
  | cons b bs ih =>
    simp only [List.length_cons] at h
    exact ih (Memory.wf_write hm (by omega) b) (by omega)

/-- Outside the block a block write leaves every byte as it was. -/
theorem Memory.read_storeAll_outside (m : Memory) {a c : Nat} {bs : List Byte} (h : c < a ∨ a + bs.length ≤ c) :
    Memory.read (Memory.storeAll m a bs) c = Memory.read m c := by
  induction bs generalizing m a with
  | nil => rfl
  | cons b bs ih =>
    simp only [List.length_cons] at h
    rw [Memory.storeAll, ih _ (by omega), Memory.read_write_ne _ (by omega)]

/-- Inside the block it leaves the bytes written. -/
theorem Memory.read_storeAll_inside {m : Memory} (hm : m.wf = true) {a k : Nat} {bs : List Byte}
    (h : a + bs.length ≤ Config.memSize) (hk : k < bs.length) :
    Memory.read (Memory.storeAll m a bs) (a + k) = bs[k] := by
  induction bs generalizing m a k with
  | nil => simp at hk
  | cons b bs ih =>
    simp only [List.length_cons] at h hk
    cases k with
    | zero =>
      rw [Memory.storeAll, Memory.read_storeAll_outside _ (by omega), Nat.add_zero, Memory.read_write_same hm]
      rfl
    | succ k =>
      rw [Memory.storeAll, show a + (k + 1) = a + 1 + k by omega,
        ih (Memory.wf_write hm (by omega) b) (by omega) (by omega)]
      rfl

@[simp] theorem Memory.length_loadAll (m : Memory) (a n : Nat) : (Memory.loadAll m a n).length = n := by
  induction n generalizing a with
  | zero => rfl
  | succ n ih => simp [Memory.loadAll, ih]

/-- Byte `k` of a block read is the byte at `a + k`. -/
theorem Memory.getElem?_loadAll (m : Memory) (a n k : Nat) :
    (Memory.loadAll m a n)[k]? = if k < n then some (Memory.read m (a + k)) else none := by
  induction n generalizing a k with
  | zero => simp [Memory.loadAll]
  | succ n ih =>
    cases k with
    | zero => simp [Memory.loadAll]
    | succ k => simp [Memory.loadAll, ih, show a + 1 + k = a + (k + 1) by omega]

/-- Memories in the canonical form that read the same everywhere are the same data. -/
theorem Memory.eq_of_read_eq {lo : Nat} {m m' : Memory} (hm : Memory.wfFrom lo m = true)
    (hm' : Memory.wfFrom lo m' = true) (h : ∀ a, Memory.read m a = Memory.read m' a) : m = m' := by
  induction m generalizing lo m' with
  | nil =>
    cases m' with
    | nil => rfl
    | cons e' m' =>
      simp only [Memory.wfFrom, Bool.and_eq_true, bne_iff_ne] at hm'
      exact absurd (by simpa [Memory.read] using (h e'.1).symm) hm'.1.2
  | cons e m ih =>
    have he := hm
    simp only [Memory.wfFrom, Bool.and_eq_true, decide_eq_true_eq, bne_iff_ne] at he
    cases m' with
    | nil => exact absurd (by simpa [Memory.read] using h e.1) he.1.2
    | cons e' m' =>
      have he' := hm'
      simp only [Memory.wfFrom, Bool.and_eq_true, decide_eq_true_eq, bne_iff_ne] at he'
      have hk : e.1 = e'.1 := by
        rcases Nat.lt_trichotomy e.1 e'.1 with hlt | heq | hlt
        · have h1 := h e.1
          simp only [Memory.read, if_true, show e.1 ≠ e'.1 by omega, if_false] at h1
          rw [Memory.read_below (by omega) he'.2] at h1
          exact absurd h1 he.1.2
        · exact heq
        · have h1 := h e'.1
          simp only [Memory.read, if_true, show e'.1 ≠ e.1 by omega, if_false] at h1
          rw [Memory.read_below (by omega) he.2] at h1
          exact absurd h1.symm he'.1.2
      have hv : e.2 = e'.2 := by simpa [Memory.read, hk] using h e.1
      have ht : m = m' := by
        refine ih he.2 (hk ▸ he'.2) fun a => ?_
        by_cases ha : a = e.1
        · rw [ha, Memory.read_below (Nat.lt_succ_self _) he.2,
            Memory.read_below (Nat.lt_succ_self _) (hk ▸ he'.2)]
        · simpa [Memory.read, ha, show a ≠ e'.1 from hk ▸ ha] using h a
      rw [ht, Prod.ext hk hv]

/-- The bounds check passes exactly when the access is empty or inside memory. -/
theorem firstOutside_eq_none {a n : Nat} : firstOutside a n = none ↔ n = 0 ∨ a + n ≤ Config.memSize := by
  induction n generalizing a with
  | zero => simp [firstOutside]
  | succ n ih =>
    simp only [firstOutside]
    split
    · rw [ih]; simp only [Config.memSize] at *; omega
    · simp only [Config.memSize] at *; simp; omega

/-- A failed bounds check gives the lowest address of the access that is outside memory. -/
theorem firstOutside_eq_some {a n bad : Nat} :
    firstOutside a n = some bad ↔ n ≠ 0 ∧ Config.memSize < a + n ∧ bad = max a Config.memSize := by
  induction n generalizing a with
  | zero => simp [firstOutside]
  | succ n ih =>
    simp only [firstOutside]
    split
    · rw [ih]; simp only [Config.memSize] at *; omega
    · simp only [Config.memSize, Option.some.injEq] at *; omega

theorem readBytes_eq_ok {m : Memory} {a n : Nat} {bs : List Byte} :
    readBytes m a n = .ok bs ↔ (n = 0 ∨ a + n ≤ Config.memSize) ∧ bs = Memory.loadAll m a n := by
  unfold readBytes
  split
  · next bad h => simp [← firstOutside_eq_none, h]
  · next h =>
    rw [Except.ok.injEq]
    exact ⟨fun e => ⟨firstOutside_eq_none.mp h, e.symm⟩, fun e => e.2.symm⟩

theorem readBytes_eq_error {m : Memory} {a n bad : Nat} :
    readBytes m a n = .error bad ↔ n ≠ 0 ∧ Config.memSize < a + n ∧ bad = max a Config.memSize := by
  unfold readBytes
  split
  · next b h => rw [← firstOutside_eq_some, h]; simp
  · next h => rw [← firstOutside_eq_some, h]; simp

theorem writeBytes_eq_ok {m m' : Memory} {a : Nat} {bs : List Byte} :
    writeBytes m a bs = .ok m' ↔ (bs.length = 0 ∨ a + bs.length ≤ Config.memSize) ∧ m' = Memory.storeAll m a bs := by
  unfold writeBytes
  split
  · next bad h =>
    have hn := firstOutside_eq_none.not.mp (by rw [h]; exact Option.some_ne_none bad)
    exact ⟨fun e => (nomatch e), fun e => absurd e.1 hn⟩
  · next h =>
    rw [Except.ok.injEq]
    exact ⟨fun e => ⟨firstOutside_eq_none.mp h, e.symm⟩, fun e => e.2.symm⟩

theorem writeBytes_eq_error {m : Memory} {a bad : Nat} {bs : List Byte} :
    writeBytes m a bs = .error bad ↔
      bs.length ≠ 0 ∧ Config.memSize < a + bs.length ∧ bad = max a Config.memSize := by
  unfold writeBytes
  split
  · next b h => rw [← firstOutside_eq_some, h]; simp
  · next h => rw [← firstOutside_eq_some, h]; simp

/-- Every memory operation keeps the canonical form. -/
theorem writeBytes_wf {m m' : Memory} (hm : m.wf = true) {a : Nat} {bs : List Byte}
    (h : writeBytes m a bs = .ok m') : m'.wf = true := by
  obtain ⟨h1, rfl⟩ := writeBytes_eq_ok.mp h
  rcases h1 with h1 | h1
  · rw [List.length_eq_zero_iff.mp h1]; exact hm
  · exact Memory.wf_storeAll hm h1

end Sys2Proof.Machine
end

