-- ==== Sys2Proof/Laws/Display.lean ====
section
/-! SUPPORT. The framebuffer pixel by pixel: what one sprite row covers, what a draw does to a pixel, when it collides. -/

namespace Sys2Proof.Machine

/-- Column `px` of a drawn sprite byte (R172): bit `7 − c` at column `x0 + c`, nothing elsewhere. -/
theorem spriteRow_pixel (b : Byte) (x0 px : Nat) (h : px < 64) :
    (spriteRow b x0).getMsbD px = (decide (x0 ≤ px) && decide (px < x0 + 8) && b.getLsbD (7 - (px - x0))) := by
  simp only [spriteRow, BitVec.getMsbD_ushiftRight, BitVec.getMsbD_shiftLeft, BitVec.getMsbD_setWidth]
  by_cases h1 : px < x0
  · simp [h1, show ¬ x0 ≤ px by omega]
  · have h2 : x0 ≤ px := by omega
    by_cases h3 : px < x0 + 8
    · rw [show px - x0 + 56 + 8 - 64 = px - x0 by omega]
      simp [h, h1, h2, h3, BitVec.getMsbD, show px - x0 < 8 by omega, show 56 ≤ px - x0 + 56 by omega]
    · simp [h3, BitVec.getMsbD]
      omega

/-- A pixel after a draw: XORed with the sprite's mask. -/
theorem xorSprite_pixel (fb : Framebuffer) (rows : List Byte) (x0 y0 px py : Nat) (hy : py < 32) :
    (fb.xorSprite rows x0 y0).pixel px py = (fb.pixel px py ^^ (spriteMask rows x0 y0 py).getMsbD px) := by
  simp [Framebuffer.pixel, Framebuffer.xorSprite, hy]

/-- The mask covers a pixel when some row and column of the sprite land on it with a 1 bit (R172). -/
theorem spriteMask_pixel (rows : List Byte) (x0 y0 px py : Nat) (hx : px < 64) :
    (spriteMask rows x0 y0 py).getMsbD px = true ↔
      ∃ r c b, rows[r]? = some b ∧ c < 8 ∧ px = x0 + c ∧ py = y0 + r ∧ b.getLsbD (7 - c) = true := by
  unfold spriteMask
  split
  · next hy =>
    cases hb : rows[py - y0]? with
    | none =>
      simp only [BitVec.ofNat_eq_ofNat, BitVec.getMsbD_zero, Bool.false_eq_true, false_iff]
      rintro ⟨r, c, b, h1, -, -, h2, -⟩
      rw [show py - y0 = r by omega, h1] at hb
      cases hb
    | some b =>
      simp only [spriteRow_pixel _ _ _ hx, Bool.and_eq_true, decide_eq_true_eq]
      constructor
      · rintro ⟨⟨h1, h2⟩, h3⟩
        exact ⟨py - y0, px - x0, b, hb, by omega, by omega, by omega, h3⟩
      · rintro ⟨r, c, b', h1, h2, rfl, h4, h5⟩
        rw [show py - y0 = r by omega, h1] at hb
        cases hb
        exact ⟨⟨by omega, by omega⟩, by rwa [show x0 + c - x0 = c by omega]⟩
  · next hy =>
    simp only [BitVec.ofNat_eq_ofNat, BitVec.getMsbD_zero, Bool.false_eq_true, false_iff]
    rintro ⟨r, c, b, -, -, -, h2, -⟩
    omega

/-- The mask of the sprite read at I covers the pixels of `State.covers` (R172). -/
theorem spriteMask_covers (s : State) (x0 y0 n px py : Nat) (hx : px < 64) :
    (spriteMask (Memory.loadAll s.mem s.dataAddr n) x0 y0 py).getMsbD px = true ↔ s.covers x0 y0 n px py := by
  rw [spriteMask_pixel _ _ _ _ _ hx]
  simp only [State.covers, Memory.getElem?_loadAll]
  constructor
  · rintro ⟨r, c, b, h1, h2⟩
    split at h1
    · cases h1; exact ⟨r, c, ‹_›, h2⟩
    · cases h1
  · rintro ⟨r, c, h1, h2⟩
    exact ⟨r, c, _, by simp [h1], h2⟩

/-- A word is not 0 when one of its bits is 1. -/
theorem ne_zero_iff_getMsbD (a : BitVec 64) : a ≠ 0 ↔ ∃ k < 64, a.getMsbD k = true := by
  constructor
  · intro h
    by_contra hn
    refine h (BitVec.eq_of_getMsbD_eq fun k hk => ?_)
    simp only [not_exists, not_and, Bool.not_eq_true] at hn
    simp [hn k hk]
  · rintro ⟨k, -, hk⟩ rfl
    simp at hk

/-- A draw collides when some on-screen pixel holds 1 and is covered (R173). -/
theorem collides_iff (fb : Framebuffer) (rows : List Byte) (x0 y0 : Nat) :
    fb.collides rows x0 y0 = true ↔
      ∃ (px : Fin 64) (py : Fin 32), fb.pixel px py = true ∧ (spriteMask rows x0 y0 py).getMsbD px = true := by
  simp only [Framebuffer.collides, List.any_eq_true, List.mem_finRange, true_and, bne_iff_ne, ne_zero_iff_getMsbD,
    BitVec.getMsbD_and, Bool.and_eq_true]
  constructor
  · rintro ⟨y, k, hk, h1, h2⟩
    exact ⟨⟨k, hk⟩, y, by simpa [Framebuffer.pixel] using h1, h2⟩
  · rintro ⟨x, y, h1, h2⟩
    exact ⟨y, x.val, x.isLt, by simpa [Framebuffer.pixel] using h1, h2⟩

/-- Framebuffers with the same 2048 pixels are the same. -/
theorem framebuffer_ext {a b : Framebuffer} (h : ∀ (x : Fin 64) (y : Fin 32), a.pixel x y = b.pixel x y) : a = b := by
  refine Vector.ext fun y hy => BitVec.eq_of_getMsbD_eq fun x hx => ?_
  simpa [Framebuffer.pixel, hy] using h ⟨x, hx⟩ ⟨y, hy⟩

end Sys2Proof.Machine
end

