-- ==== Sys2Proof/Laws/Encoding.lean ====
section
/-! SUPPORT. The fields of a word built by a format, and the word rebuilt from its fields. -/

namespace Sys2Proof

@[simp] theorem fieldF_formatA (f : BitVec 4) (nnn : Addr) : fieldF (formatA f nnn) = f := by
  refine BitVec.eq_of_getLsbD_eq fun k hk => ?_
  simp only [formatA, fieldF, BitVec.getLsbD_append, BitVec.getLsbD_extractLsb', hk, decide_true, Bool.true_and]
  grind

@[simp] theorem fieldNNN_formatA (f : BitVec 4) (nnn : Addr) : fieldNNN (formatA f nnn) = nnn := by
  refine BitVec.eq_of_getLsbD_eq fun k hk => ?_
  simp only [formatA, fieldNNN, BitVec.getLsbD_append, BitVec.getLsbD_extractLsb', hk, decide_true, Bool.true_and]
  grind

@[simp] theorem fieldF_formatXK (f : BitVec 4) (x : Reg) (nn : Byte) : fieldF (formatXK f x nn) = f := by
  refine BitVec.eq_of_getLsbD_eq fun k hk => ?_
  simp only [formatXK, fieldF, BitVec.getLsbD_append, BitVec.getLsbD_extractLsb', hk, decide_true, Bool.true_and]
  grind

@[simp] theorem fieldX_formatXK (f : BitVec 4) (x : Reg) (nn : Byte) : fieldX (formatXK f x nn) = x := by
  refine congrArg BitVec.toFin (?_ : BitVec.extractLsb' 8 4 (formatXK f x nn) = BitVec.ofFin x)
  refine BitVec.eq_of_getLsbD_eq fun k hk => ?_
  simp only [formatXK, BitVec.getLsbD_append, BitVec.getLsbD_extractLsb', hk, decide_true, Bool.true_and]
  grind

@[simp] theorem fieldNN_formatXK (f : BitVec 4) (x : Reg) (nn : Byte) : fieldNN (formatXK f x nn) = nn := by
  refine BitVec.eq_of_getLsbD_eq fun k hk => ?_
  simp only [formatXK, fieldNN, BitVec.getLsbD_append, BitVec.getLsbD_extractLsb', hk, decide_true, Bool.true_and]
  grind

@[simp] theorem fieldF_formatXYN (f : BitVec 4) (x y : Reg) (n : Nibble) : fieldF (formatXYN f x y n) = f := by
  refine BitVec.eq_of_getLsbD_eq fun k hk => ?_
  simp only [formatXYN, fieldF, BitVec.getLsbD_append, BitVec.getLsbD_extractLsb', hk, decide_true, Bool.true_and]
  grind

@[simp] theorem fieldX_formatXYN (f : BitVec 4) (x y : Reg) (n : Nibble) : fieldX (formatXYN f x y n) = x := by
  refine congrArg BitVec.toFin (?_ : BitVec.extractLsb' 8 4 (formatXYN f x y n) = BitVec.ofFin x)
  refine BitVec.eq_of_getLsbD_eq fun k hk => ?_
  simp only [formatXYN, BitVec.getLsbD_append, BitVec.getLsbD_extractLsb', hk, decide_true, Bool.true_and]
  grind

@[simp] theorem fieldY_formatXYN (f : BitVec 4) (x y : Reg) (n : Nibble) : fieldY (formatXYN f x y n) = y := by
  refine congrArg BitVec.toFin (?_ : BitVec.extractLsb' 4 4 (formatXYN f x y n) = BitVec.ofFin y)
  refine BitVec.eq_of_getLsbD_eq fun k hk => ?_
  simp only [formatXYN, BitVec.getLsbD_append, BitVec.getLsbD_extractLsb', hk, decide_true, Bool.true_and]
  grind

@[simp] theorem fieldN_formatXYN (f : BitVec 4) (x y : Reg) (n : Nibble) : fieldN (formatXYN f x y n) = n := by
  refine BitVec.eq_of_getLsbD_eq fun k hk => ?_
  simp only [formatXYN, fieldN, BitVec.getLsbD_append, BitVec.getLsbD_extractLsb', hk, decide_true, Bool.true_and]
  grind

/-- A word is its F and NNN fields. -/
theorem formatA_fields (op : Word) : formatA (fieldF op) (fieldNNN op) = op := by
  apply BitVec.eq_of_getLsbD_eq
  intro k hk
  simp only [formatA, fieldF, fieldNNN, BitVec.getLsbD_append, BitVec.getLsbD_extractLsb']
  split
  · simp [*]
  · next h => simp [show k - 12 < 4 by omega, show 12 + (k - 12) = k by omega]

/-- A word is its F, X and NN fields. -/
theorem formatXK_fields (op : Word) : formatXK (fieldF op) (fieldX op) (fieldNN op) = op := by
  apply BitVec.eq_of_getLsbD_eq
  intro k hk
  simp only [formatXK, fieldF, fieldX, fieldNN, BitVec.ofFin_toFin, BitVec.getLsbD_append, BitVec.getLsbD_extractLsb']
  split
  · simp [*]
  · split
    · next h _ => simp [*, show 8 + (k - 8) = k by omega]
    · next h _ => simp [show k - 8 - 4 < 4 by omega, show 12 + (k - 8 - 4) = k by omega]

/-- A word is its F, X, Y and N fields. -/
theorem formatXYN_fields (op : Word) : formatXYN (fieldF op) (fieldX op) (fieldY op) (fieldN op) = op := by
  apply BitVec.eq_of_getLsbD_eq
  intro k hk
  simp only [formatXYN, fieldF, fieldX, fieldY, fieldN, BitVec.ofFin_toFin, BitVec.getLsbD_append,
    BitVec.getLsbD_extractLsb']
  split
  · simp [*]
  · split
    · next h _ => simp [*, show 4 + (k - 4) = k by omega]
    · split
      · next h _ _ => simp [*, show 8 + (k - 4 - 4) = k by omega]
      · next h _ _ => simp [show k - 4 - 4 - 4 < 4 by omega, show 12 + (k - 4 - 4 - 4) = k by omega]

/-- A word is its high byte and its low byte (R52). -/
@[simp] theorem wordOfBytes_bytes (op : Word) : wordOfBytes (highByte op) (lowByte op) = op := by
  apply BitVec.eq_of_getLsbD_eq
  intro k hk
  simp only [wordOfBytes, highByte, lowByte, BitVec.getLsbD_append, BitVec.getLsbD_extractLsb']
  split
  · simp [*]
  · next h => simp [show k - 8 < 8 by omega, show 8 + (k - 8) = k by omega]

/-- The only error of `decode` is `unknownOpcode` of the word itself. -/
theorem decode_error {op : Word} {e : DecodeError} (h : decode op = .error e) : e = .unknownOpcode op := by
  revert h
  unfold decode decode8 decodeE decodeF
  repeat' split
  all_goals simp +contextual [eq_comm]

end Sys2Proof
end

