-- ==== Sys2Proof/Laws/State.lean ====
section
/-! SUPPORT. One lemma per field per named update of the state, true by rfl, so that no later proof unfolds an update. -/

namespace Sys2Proof.Machine

/-! `State.writeV` -/

@[simp] theorem State.writeV_v (s : State) (r : Reg) (b : Byte) : (s.writeV r b).v = s.v.set r.val b := rfl
@[simp] theorem State.writeV_i (s : State) (r : Reg) (b : Byte) : (s.writeV r b).i = s.i := rfl
@[simp] theorem State.writeV_pc (s : State) (r : Reg) (b : Byte) : (s.writeV r b).pc = s.pc := rfl
@[simp] theorem State.writeV_stack (s : State) (r : Reg) (b : Byte) : (s.writeV r b).stack = s.stack := rfl
@[simp] theorem State.writeV_sp (s : State) (r : Reg) (b : Byte) : (s.writeV r b).sp = s.sp := rfl
@[simp] theorem State.writeV_dt (s : State) (r : Reg) (b : Byte) : (s.writeV r b).dt = s.dt := rfl
@[simp] theorem State.writeV_st (s : State) (r : Reg) (b : Byte) : (s.writeV r b).st = s.st := rfl
@[simp] theorem State.writeV_mem (s : State) (r : Reg) (b : Byte) : (s.writeV r b).mem = s.mem := rfl
@[simp] theorem State.writeV_fb (s : State) (r : Reg) (b : Byte) : (s.writeV r b).fb = s.fb := rfl
@[simp] theorem State.writeV_kprev (s : State) (r : Reg) (b : Byte) : (s.writeV r b).kprev = s.kprev := rfl
@[simp] theorem State.writeV_wait (s : State) (r : Reg) (b : Byte) : (s.writeV r b).wait = s.wait := rfl
@[simp] theorem State.writeV_rd (s : State) (r : Reg) (b : Byte) : (s.writeV r b).rd = s.rd := rfl
@[simp] theorem State.writeV_beep (s : State) (r : Reg) (b : Byte) : (s.writeV r b).beep = s.beep := rfl
@[simp] theorem State.writeV_fault (s : State) (r : Reg) (b : Byte) : (s.writeV r b).fault = s.fault := rfl
@[simp] theorem State.writeV_keysIn (s : State) (r : Reg) (b : Byte) : (s.writeV r b).keysIn = s.keysIn := rfl
@[simp] theorem State.writeV_rndIn (s : State) (r : Reg) (b : Byte) : (s.writeV r b).rndIn = s.rndIn := rfl
@[simp] theorem State.writeV_draws (s : State) (r : Reg) (b : Byte) : (s.writeV r b).draws = s.draws := rfl
@[simp] theorem State.writeV_loadOpen (s : State) (r : Reg) (b : Byte) : (s.writeV r b).loadOpen = s.loadOpen := rfl

/-! `State.jump` -/

@[simp] theorem State.jump_v (s : State) (p : Word) : (s.jump p).v = s.v := rfl
@[simp] theorem State.jump_i (s : State) (p : Word) : (s.jump p).i = s.i := rfl
@[simp] theorem State.jump_pc (s : State) (p : Word) : (s.jump p).pc = p := rfl
@[simp] theorem State.jump_stack (s : State) (p : Word) : (s.jump p).stack = s.stack := rfl
@[simp] theorem State.jump_sp (s : State) (p : Word) : (s.jump p).sp = s.sp := rfl
@[simp] theorem State.jump_dt (s : State) (p : Word) : (s.jump p).dt = s.dt := rfl
@[simp] theorem State.jump_st (s : State) (p : Word) : (s.jump p).st = s.st := rfl
@[simp] theorem State.jump_mem (s : State) (p : Word) : (s.jump p).mem = s.mem := rfl
@[simp] theorem State.jump_fb (s : State) (p : Word) : (s.jump p).fb = s.fb := rfl
@[simp] theorem State.jump_kprev (s : State) (p : Word) : (s.jump p).kprev = s.kprev := rfl
@[simp] theorem State.jump_wait (s : State) (p : Word) : (s.jump p).wait = s.wait := rfl
@[simp] theorem State.jump_rd (s : State) (p : Word) : (s.jump p).rd = s.rd := rfl
@[simp] theorem State.jump_beep (s : State) (p : Word) : (s.jump p).beep = s.beep := rfl
@[simp] theorem State.jump_fault (s : State) (p : Word) : (s.jump p).fault = s.fault := rfl
@[simp] theorem State.jump_keysIn (s : State) (p : Word) : (s.jump p).keysIn = s.keysIn := rfl
@[simp] theorem State.jump_rndIn (s : State) (p : Word) : (s.jump p).rndIn = s.rndIn := rfl
@[simp] theorem State.jump_draws (s : State) (p : Word) : (s.jump p).draws = s.draws := rfl
@[simp] theorem State.jump_loadOpen (s : State) (p : Word) : (s.jump p).loadOpen = s.loadOpen := rfl

/-! `State.advance` -/

@[simp] theorem State.advance_v (s : State) : (s.advance).v = s.v := rfl
@[simp] theorem State.advance_i (s : State) : (s.advance).i = s.i := rfl
@[simp] theorem State.advance_pc (s : State) : (s.advance).pc = s.pc + 2 := rfl
@[simp] theorem State.advance_stack (s : State) : (s.advance).stack = s.stack := rfl
@[simp] theorem State.advance_sp (s : State) : (s.advance).sp = s.sp := rfl
@[simp] theorem State.advance_dt (s : State) : (s.advance).dt = s.dt := rfl
@[simp] theorem State.advance_st (s : State) : (s.advance).st = s.st := rfl
@[simp] theorem State.advance_mem (s : State) : (s.advance).mem = s.mem := rfl
@[simp] theorem State.advance_fb (s : State) : (s.advance).fb = s.fb := rfl
@[simp] theorem State.advance_kprev (s : State) : (s.advance).kprev = s.kprev := rfl
@[simp] theorem State.advance_wait (s : State) : (s.advance).wait = s.wait := rfl
@[simp] theorem State.advance_rd (s : State) : (s.advance).rd = s.rd := rfl
@[simp] theorem State.advance_beep (s : State) : (s.advance).beep = s.beep := rfl
@[simp] theorem State.advance_fault (s : State) : (s.advance).fault = s.fault := rfl
@[simp] theorem State.advance_keysIn (s : State) : (s.advance).keysIn = s.keysIn := rfl
@[simp] theorem State.advance_rndIn (s : State) : (s.advance).rndIn = s.rndIn := rfl
@[simp] theorem State.advance_draws (s : State) : (s.advance).draws = s.draws := rfl
@[simp] theorem State.advance_loadOpen (s : State) : (s.advance).loadOpen = s.loadOpen := rfl

/-! `State.skipIf` -/

@[simp] theorem State.skipIf_v (s : State) (c : Bool) : (s.skipIf c).v = s.v := rfl
@[simp] theorem State.skipIf_i (s : State) (c : Bool) : (s.skipIf c).i = s.i := rfl
@[simp] theorem State.skipIf_pc (s : State) (c : Bool) : (s.skipIf c).pc = s.pc + if c then 4 else 2 := rfl
@[simp] theorem State.skipIf_stack (s : State) (c : Bool) : (s.skipIf c).stack = s.stack := rfl
@[simp] theorem State.skipIf_sp (s : State) (c : Bool) : (s.skipIf c).sp = s.sp := rfl
@[simp] theorem State.skipIf_dt (s : State) (c : Bool) : (s.skipIf c).dt = s.dt := rfl
@[simp] theorem State.skipIf_st (s : State) (c : Bool) : (s.skipIf c).st = s.st := rfl
@[simp] theorem State.skipIf_mem (s : State) (c : Bool) : (s.skipIf c).mem = s.mem := rfl
@[simp] theorem State.skipIf_fb (s : State) (c : Bool) : (s.skipIf c).fb = s.fb := rfl
@[simp] theorem State.skipIf_kprev (s : State) (c : Bool) : (s.skipIf c).kprev = s.kprev := rfl
@[simp] theorem State.skipIf_wait (s : State) (c : Bool) : (s.skipIf c).wait = s.wait := rfl
@[simp] theorem State.skipIf_rd (s : State) (c : Bool) : (s.skipIf c).rd = s.rd := rfl
@[simp] theorem State.skipIf_beep (s : State) (c : Bool) : (s.skipIf c).beep = s.beep := rfl
@[simp] theorem State.skipIf_fault (s : State) (c : Bool) : (s.skipIf c).fault = s.fault := rfl
@[simp] theorem State.skipIf_keysIn (s : State) (c : Bool) : (s.skipIf c).keysIn = s.keysIn := rfl
@[simp] theorem State.skipIf_rndIn (s : State) (c : Bool) : (s.skipIf c).rndIn = s.rndIn := rfl
@[simp] theorem State.skipIf_draws (s : State) (c : Bool) : (s.skipIf c).draws = s.draws := rfl
@[simp] theorem State.skipIf_loadOpen (s : State) (c : Bool) : (s.skipIf c).loadOpen = s.loadOpen := rfl

/-! `State.writeFlagged` -/

@[simp] theorem State.writeFlagged_v (s : State) (x : Reg) (f b : Byte) : (s.writeFlagged x f b).v = (s.v.set 15 f).set x.val b := rfl
@[simp] theorem State.writeFlagged_i (s : State) (x : Reg) (f b : Byte) : (s.writeFlagged x f b).i = s.i := rfl
@[simp] theorem State.writeFlagged_pc (s : State) (x : Reg) (f b : Byte) : (s.writeFlagged x f b).pc = s.pc := rfl
@[simp] theorem State.writeFlagged_stack (s : State) (x : Reg) (f b : Byte) : (s.writeFlagged x f b).stack = s.stack := rfl
@[simp] theorem State.writeFlagged_sp (s : State) (x : Reg) (f b : Byte) : (s.writeFlagged x f b).sp = s.sp := rfl
@[simp] theorem State.writeFlagged_dt (s : State) (x : Reg) (f b : Byte) : (s.writeFlagged x f b).dt = s.dt := rfl
@[simp] theorem State.writeFlagged_st (s : State) (x : Reg) (f b : Byte) : (s.writeFlagged x f b).st = s.st := rfl
@[simp] theorem State.writeFlagged_mem (s : State) (x : Reg) (f b : Byte) : (s.writeFlagged x f b).mem = s.mem := rfl
@[simp] theorem State.writeFlagged_fb (s : State) (x : Reg) (f b : Byte) : (s.writeFlagged x f b).fb = s.fb := rfl
@[simp] theorem State.writeFlagged_kprev (s : State) (x : Reg) (f b : Byte) : (s.writeFlagged x f b).kprev = s.kprev := rfl
@[simp] theorem State.writeFlagged_wait (s : State) (x : Reg) (f b : Byte) : (s.writeFlagged x f b).wait = s.wait := rfl
@[simp] theorem State.writeFlagged_rd (s : State) (x : Reg) (f b : Byte) : (s.writeFlagged x f b).rd = s.rd := rfl
@[simp] theorem State.writeFlagged_beep (s : State) (x : Reg) (f b : Byte) : (s.writeFlagged x f b).beep = s.beep := rfl
@[simp] theorem State.writeFlagged_fault (s : State) (x : Reg) (f b : Byte) : (s.writeFlagged x f b).fault = s.fault := rfl
@[simp] theorem State.writeFlagged_keysIn (s : State) (x : Reg) (f b : Byte) : (s.writeFlagged x f b).keysIn = s.keysIn := rfl
@[simp] theorem State.writeFlagged_rndIn (s : State) (x : Reg) (f b : Byte) : (s.writeFlagged x f b).rndIn = s.rndIn := rfl
@[simp] theorem State.writeFlagged_draws (s : State) (x : Reg) (f b : Byte) : (s.writeFlagged x f b).draws = s.draws := rfl
@[simp] theorem State.writeFlagged_loadOpen (s : State) (x : Reg) (f b : Byte) : (s.writeFlagged x f b).loadOpen = s.loadOpen := rfl

/-! `State.loadRegs` -/

@[simp] theorem State.loadRegs_v (s : State) (bs : List Byte) : (s.loadRegs bs).v = Vector.ofFn fun r : Fin 16 => bs.getD r.val s.v[r.val] := rfl
@[simp] theorem State.loadRegs_i (s : State) (bs : List Byte) : (s.loadRegs bs).i = s.i := rfl
@[simp] theorem State.loadRegs_pc (s : State) (bs : List Byte) : (s.loadRegs bs).pc = s.pc := rfl
@[simp] theorem State.loadRegs_stack (s : State) (bs : List Byte) : (s.loadRegs bs).stack = s.stack := rfl
@[simp] theorem State.loadRegs_sp (s : State) (bs : List Byte) : (s.loadRegs bs).sp = s.sp := rfl
@[simp] theorem State.loadRegs_dt (s : State) (bs : List Byte) : (s.loadRegs bs).dt = s.dt := rfl
@[simp] theorem State.loadRegs_st (s : State) (bs : List Byte) : (s.loadRegs bs).st = s.st := rfl
@[simp] theorem State.loadRegs_mem (s : State) (bs : List Byte) : (s.loadRegs bs).mem = s.mem := rfl
@[simp] theorem State.loadRegs_fb (s : State) (bs : List Byte) : (s.loadRegs bs).fb = s.fb := rfl
@[simp] theorem State.loadRegs_kprev (s : State) (bs : List Byte) : (s.loadRegs bs).kprev = s.kprev := rfl
@[simp] theorem State.loadRegs_wait (s : State) (bs : List Byte) : (s.loadRegs bs).wait = s.wait := rfl
@[simp] theorem State.loadRegs_rd (s : State) (bs : List Byte) : (s.loadRegs bs).rd = s.rd := rfl
@[simp] theorem State.loadRegs_beep (s : State) (bs : List Byte) : (s.loadRegs bs).beep = s.beep := rfl
@[simp] theorem State.loadRegs_fault (s : State) (bs : List Byte) : (s.loadRegs bs).fault = s.fault := rfl
@[simp] theorem State.loadRegs_keysIn (s : State) (bs : List Byte) : (s.loadRegs bs).keysIn = s.keysIn := rfl
@[simp] theorem State.loadRegs_rndIn (s : State) (bs : List Byte) : (s.loadRegs bs).rndIn = s.rndIn := rfl
@[simp] theorem State.loadRegs_draws (s : State) (bs : List Byte) : (s.loadRegs bs).draws = s.draws := rfl
@[simp] theorem State.loadRegs_loadOpen (s : State) (bs : List Byte) : (s.loadRegs bs).loadOpen = s.loadOpen := rfl

/-! `State.faulted` -/

@[simp] theorem State.faulted_v (s : State) (k : FaultRecord) : (s.faulted k).v = s.v := rfl
@[simp] theorem State.faulted_i (s : State) (k : FaultRecord) : (s.faulted k).i = s.i := rfl
@[simp] theorem State.faulted_pc (s : State) (k : FaultRecord) : (s.faulted k).pc = s.pc := rfl
@[simp] theorem State.faulted_stack (s : State) (k : FaultRecord) : (s.faulted k).stack = s.stack := rfl
@[simp] theorem State.faulted_sp (s : State) (k : FaultRecord) : (s.faulted k).sp = s.sp := rfl
@[simp] theorem State.faulted_dt (s : State) (k : FaultRecord) : (s.faulted k).dt = s.dt := rfl
@[simp] theorem State.faulted_st (s : State) (k : FaultRecord) : (s.faulted k).st = s.st := rfl
@[simp] theorem State.faulted_mem (s : State) (k : FaultRecord) : (s.faulted k).mem = s.mem := rfl
@[simp] theorem State.faulted_fb (s : State) (k : FaultRecord) : (s.faulted k).fb = s.fb := rfl
@[simp] theorem State.faulted_kprev (s : State) (k : FaultRecord) : (s.faulted k).kprev = s.kprev := rfl
@[simp] theorem State.faulted_wait (s : State) (k : FaultRecord) : (s.faulted k).wait = s.wait := rfl
@[simp] theorem State.faulted_rd (s : State) (k : FaultRecord) : (s.faulted k).rd = s.rd := rfl
@[simp] theorem State.faulted_beep (s : State) (k : FaultRecord) : (s.faulted k).beep = false := rfl
@[simp] theorem State.faulted_fault (s : State) (k : FaultRecord) : (s.faulted k).fault = some k := rfl
@[simp] theorem State.faulted_keysIn (s : State) (k : FaultRecord) : (s.faulted k).keysIn = s.keysIn := rfl
@[simp] theorem State.faulted_rndIn (s : State) (k : FaultRecord) : (s.faulted k).rndIn = s.rndIn := rfl
@[simp] theorem State.faulted_draws (s : State) (k : FaultRecord) : (s.faulted k).draws = s.draws := rfl
@[simp] theorem State.faulted_loadOpen (s : State) (k : FaultRecord) : (s.faulted k).loadOpen = s.loadOpen := rfl

/-! `State.startStep` -/

@[simp] theorem State.startStep_v (s : State) : (s.startStep).v = s.v := rfl
@[simp] theorem State.startStep_i (s : State) : (s.startStep).i = s.i := rfl
@[simp] theorem State.startStep_pc (s : State) : (s.startStep).pc = s.pc := rfl
@[simp] theorem State.startStep_stack (s : State) : (s.startStep).stack = s.stack := rfl
@[simp] theorem State.startStep_sp (s : State) : (s.startStep).sp = s.sp := rfl
@[simp] theorem State.startStep_dt (s : State) : (s.startStep).dt = s.dt := rfl
@[simp] theorem State.startStep_st (s : State) : (s.startStep).st = s.st := rfl
@[simp] theorem State.startStep_mem (s : State) : (s.startStep).mem = s.mem := rfl
@[simp] theorem State.startStep_fb (s : State) : (s.startStep).fb = s.fb := rfl
@[simp] theorem State.startStep_kprev (s : State) : (s.startStep).kprev = s.kprev := rfl
@[simp] theorem State.startStep_wait (s : State) : (s.startStep).wait = s.wait := rfl
@[simp] theorem State.startStep_rd (s : State) : (s.startStep).rd = s.rd := rfl
@[simp] theorem State.startStep_beep (s : State) : (s.startStep).beep = false := rfl
@[simp] theorem State.startStep_fault (s : State) : (s.startStep).fault = s.fault := rfl
@[simp] theorem State.startStep_keysIn (s : State) : (s.startStep).keysIn = s.keysIn := rfl
@[simp] theorem State.startStep_rndIn (s : State) : (s.startStep).rndIn = s.rndIn := rfl
@[simp] theorem State.startStep_draws (s : State) : (s.startStep).draws = s.draws := rfl
@[simp] theorem State.startStep_loadOpen (s : State) : (s.startStep).loadOpen = s.loadOpen := rfl

/-! `State.tick` -/

@[simp] theorem State.tick_v (s : State) : (s.tick).v = s.v := rfl
@[simp] theorem State.tick_i (s : State) : (s.tick).i = s.i := rfl
@[simp] theorem State.tick_pc (s : State) : (s.tick).pc = s.pc := rfl
@[simp] theorem State.tick_stack (s : State) : (s.tick).stack = s.stack := rfl
@[simp] theorem State.tick_sp (s : State) : (s.tick).sp = s.sp := rfl
@[simp] theorem State.tick_dt (s : State) : (s.tick).dt = tickDown s.dt := rfl
@[simp] theorem State.tick_st (s : State) : (s.tick).st = tickDown s.st := rfl
@[simp] theorem State.tick_mem (s : State) : (s.tick).mem = s.mem := rfl
@[simp] theorem State.tick_fb (s : State) : (s.tick).fb = s.fb := rfl
@[simp] theorem State.tick_kprev (s : State) : (s.tick).kprev = s.kprev := rfl
@[simp] theorem State.tick_wait (s : State) : (s.tick).wait = s.wait := rfl
@[simp] theorem State.tick_rd (s : State) : (s.tick).rd = s.rd := rfl
@[simp] theorem State.tick_beep (s : State) : (s.tick).beep = if s.st = 1 then true else s.beep := rfl
@[simp] theorem State.tick_fault (s : State) : (s.tick).fault = s.fault := rfl
@[simp] theorem State.tick_keysIn (s : State) : (s.tick).keysIn = s.keysIn := rfl
@[simp] theorem State.tick_rndIn (s : State) : (s.tick).rndIn = s.rndIn := rfl
@[simp] theorem State.tick_draws (s : State) : (s.tick).draws = s.draws := rfl
@[simp] theorem State.tick_loadOpen (s : State) : (s.tick).loadOpen = s.loadOpen := rfl

/-! `State.endStep` -/

@[simp] theorem State.endStep_v (s : State) : (s.endStep).v = s.v := rfl
@[simp] theorem State.endStep_i (s : State) : (s.endStep).i = s.i := rfl
@[simp] theorem State.endStep_pc (s : State) : (s.endStep).pc = s.pc := rfl
@[simp] theorem State.endStep_stack (s : State) : (s.endStep).stack = s.stack := rfl
@[simp] theorem State.endStep_sp (s : State) : (s.endStep).sp = s.sp := rfl
@[simp] theorem State.endStep_dt (s : State) : (s.endStep).dt = tickDown s.dt := rfl
@[simp] theorem State.endStep_st (s : State) : (s.endStep).st = tickDown s.st := rfl
@[simp] theorem State.endStep_mem (s : State) : (s.endStep).mem = s.mem := rfl
@[simp] theorem State.endStep_fb (s : State) : (s.endStep).fb = s.fb := rfl
@[simp] theorem State.endStep_kprev (s : State) : (s.endStep).kprev = s.keysIn := rfl
@[simp] theorem State.endStep_wait (s : State) : (s.endStep).wait = s.wait := rfl
@[simp] theorem State.endStep_rd (s : State) : (s.endStep).rd = s.rd := rfl
@[simp] theorem State.endStep_beep (s : State) : (s.endStep).beep = if s.st = 1 then true else s.beep := rfl
@[simp] theorem State.endStep_fault (s : State) : (s.endStep).fault = s.fault := rfl
@[simp] theorem State.endStep_keysIn (s : State) : (s.endStep).keysIn = s.keysIn := rfl
@[simp] theorem State.endStep_rndIn (s : State) : (s.endStep).rndIn = Config.randomByte s.draws := rfl
@[simp] theorem State.endStep_draws (s : State) : (s.endStep).draws = s.draws + 1 := rfl
@[simp] theorem State.endStep_loadOpen (s : State) : (s.endStep).loadOpen = false := rfl

/-! `setKeypad` -/

@[simp] theorem setKeypad_v (k : Word) (s : State) : (setKeypad k s).v = s.v := rfl
@[simp] theorem setKeypad_i (k : Word) (s : State) : (setKeypad k s).i = s.i := rfl
@[simp] theorem setKeypad_pc (k : Word) (s : State) : (setKeypad k s).pc = s.pc := rfl
@[simp] theorem setKeypad_stack (k : Word) (s : State) : (setKeypad k s).stack = s.stack := rfl
@[simp] theorem setKeypad_sp (k : Word) (s : State) : (setKeypad k s).sp = s.sp := rfl
@[simp] theorem setKeypad_dt (k : Word) (s : State) : (setKeypad k s).dt = s.dt := rfl
@[simp] theorem setKeypad_st (k : Word) (s : State) : (setKeypad k s).st = s.st := rfl
@[simp] theorem setKeypad_mem (k : Word) (s : State) : (setKeypad k s).mem = s.mem := rfl
@[simp] theorem setKeypad_fb (k : Word) (s : State) : (setKeypad k s).fb = s.fb := rfl
@[simp] theorem setKeypad_kprev (k : Word) (s : State) : (setKeypad k s).kprev = s.kprev := rfl
@[simp] theorem setKeypad_wait (k : Word) (s : State) : (setKeypad k s).wait = s.wait := rfl
@[simp] theorem setKeypad_rd (k : Word) (s : State) : (setKeypad k s).rd = s.rd := rfl
@[simp] theorem setKeypad_beep (k : Word) (s : State) : (setKeypad k s).beep = s.beep := rfl
@[simp] theorem setKeypad_fault (k : Word) (s : State) : (setKeypad k s).fault = s.fault := rfl
@[simp] theorem setKeypad_keysIn (k : Word) (s : State) : (setKeypad k s).keysIn = k := rfl
@[simp] theorem setKeypad_rndIn (k : Word) (s : State) : (setKeypad k s).rndIn = s.rndIn := rfl
@[simp] theorem setKeypad_draws (k : Word) (s : State) : (setKeypad k s).draws = s.draws := rfl
@[simp] theorem setKeypad_loadOpen (k : Word) (s : State) : (setKeypad k s).loadOpen = s.loadOpen := rfl

/-! `setRandom` -/

@[simp] theorem setRandom_v (b : Byte) (s : State) : (setRandom b s).v = s.v := rfl
@[simp] theorem setRandom_i (b : Byte) (s : State) : (setRandom b s).i = s.i := rfl
@[simp] theorem setRandom_pc (b : Byte) (s : State) : (setRandom b s).pc = s.pc := rfl
@[simp] theorem setRandom_stack (b : Byte) (s : State) : (setRandom b s).stack = s.stack := rfl
@[simp] theorem setRandom_sp (b : Byte) (s : State) : (setRandom b s).sp = s.sp := rfl
@[simp] theorem setRandom_dt (b : Byte) (s : State) : (setRandom b s).dt = s.dt := rfl
@[simp] theorem setRandom_st (b : Byte) (s : State) : (setRandom b s).st = s.st := rfl
@[simp] theorem setRandom_mem (b : Byte) (s : State) : (setRandom b s).mem = s.mem := rfl
@[simp] theorem setRandom_fb (b : Byte) (s : State) : (setRandom b s).fb = s.fb := rfl
@[simp] theorem setRandom_kprev (b : Byte) (s : State) : (setRandom b s).kprev = s.kprev := rfl
@[simp] theorem setRandom_wait (b : Byte) (s : State) : (setRandom b s).wait = s.wait := rfl
@[simp] theorem setRandom_rd (b : Byte) (s : State) : (setRandom b s).rd = s.rd := rfl
@[simp] theorem setRandom_beep (b : Byte) (s : State) : (setRandom b s).beep = s.beep := rfl
@[simp] theorem setRandom_fault (b : Byte) (s : State) : (setRandom b s).fault = s.fault := rfl
@[simp] theorem setRandom_keysIn (b : Byte) (s : State) : (setRandom b s).keysIn = s.keysIn := rfl
@[simp] theorem setRandom_rndIn (b : Byte) (s : State) : (setRandom b s).rndIn = b := rfl
@[simp] theorem setRandom_draws (b : Byte) (s : State) : (setRandom b s).draws = s.draws := rfl
@[simp] theorem setRandom_loadOpen (b : Byte) (s : State) : (setRandom b s).loadOpen = s.loadOpen := rfl

/-! `clearRedraw` -/

@[simp] theorem clearRedraw_v (s : State) : (clearRedraw s).v = s.v := rfl
@[simp] theorem clearRedraw_i (s : State) : (clearRedraw s).i = s.i := rfl
@[simp] theorem clearRedraw_pc (s : State) : (clearRedraw s).pc = s.pc := rfl
@[simp] theorem clearRedraw_stack (s : State) : (clearRedraw s).stack = s.stack := rfl
@[simp] theorem clearRedraw_sp (s : State) : (clearRedraw s).sp = s.sp := rfl
@[simp] theorem clearRedraw_dt (s : State) : (clearRedraw s).dt = s.dt := rfl
@[simp] theorem clearRedraw_st (s : State) : (clearRedraw s).st = s.st := rfl
@[simp] theorem clearRedraw_mem (s : State) : (clearRedraw s).mem = s.mem := rfl
@[simp] theorem clearRedraw_fb (s : State) : (clearRedraw s).fb = s.fb := rfl
@[simp] theorem clearRedraw_kprev (s : State) : (clearRedraw s).kprev = s.kprev := rfl
@[simp] theorem clearRedraw_wait (s : State) : (clearRedraw s).wait = s.wait := rfl
@[simp] theorem clearRedraw_rd (s : State) : (clearRedraw s).rd = false := rfl
@[simp] theorem clearRedraw_beep (s : State) : (clearRedraw s).beep = s.beep := rfl
@[simp] theorem clearRedraw_fault (s : State) : (clearRedraw s).fault = s.fault := rfl
@[simp] theorem clearRedraw_keysIn (s : State) : (clearRedraw s).keysIn = s.keysIn := rfl
@[simp] theorem clearRedraw_rndIn (s : State) : (clearRedraw s).rndIn = s.rndIn := rfl
@[simp] theorem clearRedraw_draws (s : State) : (clearRedraw s).draws = s.draws := rfl
@[simp] theorem clearRedraw_loadOpen (s : State) : (clearRedraw s).loadOpen = s.loadOpen := rfl

/-! Reading a register after an update -/

@[simp] theorem State.readV_writeV_same (s : State) (r : Reg) (b : Byte) : (s.writeV r b).readV r = b := by
  simp [State.readV]

theorem State.readV_writeV (s : State) (r q : Reg) (b : Byte) :
    (s.writeV r b).readV q = if q = r then b else s.readV q := by
  simp only [State.readV, State.writeV_v, Vector.getElem_set, Fin.ext_iff, eq_comm]

theorem State.readV_writeV_ne (s : State) {r q : Reg} (h : q ≠ r) (b : Byte) :
    (s.writeV r b).readV q = s.readV q := by
  simp [State.readV_writeV, h]

theorem State.readV_writeFlagged (s : State) (x q : Reg) (f b : Byte) :
    (s.writeFlagged x f b).readV q = if q = x then b else if q = vf then f else s.readV q := by
  simp only [State.writeFlagged, State.readV_writeV]

theorem State.readV_loadRegs (s : State) (bs : List Byte) (q : Reg) :
    (s.loadRegs bs).readV q = bs.getD q.val (s.readV q) := by
  simp [State.readV]

@[simp] theorem State.readV_jump (s : State) (p : Word) (q : Reg) : (s.jump p).readV q = s.readV q := rfl
@[simp] theorem State.readV_advance (s : State) (q : Reg) : s.advance.readV q = s.readV q := rfl
@[simp] theorem State.readV_skipIf (s : State) (c : Bool) (q : Reg) : (s.skipIf c).readV q = s.readV q := rfl
@[simp] theorem State.readV_faulted (s : State) (r : FaultRecord) (q : Reg) : (s.faulted r).readV q = s.readV q := rfl
@[simp] theorem State.readV_startStep (s : State) (q : Reg) : s.startStep.readV q = s.readV q := rfl
@[simp] theorem State.readV_tick (s : State) (q : Reg) : s.tick.readV q = s.readV q := rfl
@[simp] theorem State.readV_endStep (s : State) (q : Reg) : s.endStep.readV q = s.readV q := rfl
@[simp] theorem readV_setRandom (b : Byte) (s : State) (q : Reg) : (setRandom b s).readV q = s.readV q := rfl

/-- A register read depends on the register file alone. -/
theorem State.readV_congr {s t : State} (h : t.v = s.v) (r : Reg) : t.readV r = s.readV r := by
  simp [State.readV, h]

end Sys2Proof.Machine
end

