-- ==== Sys2Proof/Laws/Ops.lean ====
section
/-! SUPPORT. One lemma per shared operation that says once everything it can do: the stack, keys, fetch, the key-wait
check, the end of a step, and the cases of a step. -/

namespace Sys2Proof.Machine

/-- A push is refused exactly when SP = 16. -/
theorem State.push_eq_none {s : State} : s.push = none ↔ s.sp.val = 16 := by
  have := s.sp.isLt
  unfold State.push
  split <;> simp <;> omega

/-- A push stores PC at SP and moves SP up. -/
theorem State.push_eq_some {s t : State} :
    s.push = some t ↔ ∃ h : s.sp.val < 16,
      t = { s with stack := s.stack.set s.sp.val s.pc, sp := ⟨s.sp.val + 1, Nat.succ_lt_succ h⟩ } := by
  unfold State.push
  split
  · next h => simp [h, eq_comm]
  · next h => simp [h]

/-- A pop is refused exactly when SP = 0. -/
theorem State.pop_eq_none {s : State} : s.pop = none ↔ s.sp.val = 0 := by
  unfold State.pop
  split <;> simp <;> omega

/-- A pop gives the top entry and moves SP down; the entry stays. -/
theorem State.pop_eq_some {s t : State} {ret : Word} :
    s.pop = some (ret, t) ↔ ∃ k : Fin 16, k.val + 1 = s.sp.val ∧ ret = s.stack[k.val] ∧
      t = { s with sp := k.castSucc } := by
  have hlt := s.sp.isLt
  unfold State.pop
  split
  · next h =>
    simp only [Option.some.injEq, Prod.mk.injEq]
    constructor
    · rintro ⟨rfl, rfl⟩
      exact ⟨⟨s.sp.val - 1, by omega⟩, by simp; omega, rfl, rfl⟩
    · rintro ⟨k, hk, rfl, rfl⟩
      have : s.sp.val - 1 = k.val := by omega
      simp [this, Fin.castSucc, Fin.castAdd, Fin.castLE]
  · next h => simp; omega

/-- No key is new. -/
theorem State.newKey_eq_none {s : State} : s.newKey = none ↔ ∀ k < 16, s.keyNew k = false := by
  simp [State.newKey]

/-- The lowest new key. -/
theorem State.newKey_eq_some {s : State} {k : Nat} :
    s.newKey = some k ↔ k < 16 ∧ s.keyNew k = true ∧ ∀ j < k, s.keyNew j = false := by
  simp [State.newKey, List.find?_range_eq_some, and_left_comm]

/-- Whether a key is new depends on the two keypad samples alone. -/
theorem State.newKey_congr {s t : State} (h : t.keysIn = s.keysIn) (h' : t.kprev = s.kprev) : t.newKey = s.newKey := by
  unfold State.newKey State.keyNew
  rw [h, h']

/-- The key-wait check: it completes with the lowest new key or changes nothing (R107). -/
theorem State.keyWaitCheck_cases (s : State) (x : Reg) :
    (∃ k, s.newKey = some k ∧
      s.keyWaitCheck x = { (s.writeV x (BitVec.ofNat 8 k)).advance with wait := .running }) ∨
    (s.newKey = none ∧ s.keyWaitCheck x = s) := by
  unfold State.keyWaitCheck
  cases h : s.newKey with
  | none => exact .inr ⟨rfl, rfl⟩
  | some k => exact .inl ⟨k, rfl, rfl⟩

@[simp] theorem State.keyWaitCheck_fault (s : State) (x : Reg) : (s.keyWaitCheck x).fault = s.fault := by
  rcases s.keyWaitCheck_cases x with ⟨k, -, h⟩ | ⟨-, h⟩
  · rw [h]; rfl
  · rw [h]

/-- A timer tick in integers: down by one, never below 0 (R108). -/
@[simp] theorem tickDown_toNat (t : Byte) : (tickDown t).toNat = t.toNat - 1 := by
  unfold tickDown
  split
  · next h => simp [h]
  · next h =>
    have : t.toNat ≠ 0 := fun h' => h (BitVec.eq_of_toNat_eq (by simpa using h'))
    rw [BitVec.toNat_sub_of_le (by rw [BitVec.le_def]; simp; omega)]
    rfl

/-- What a step leaves when its instruction left no fault. -/
theorem State.settle_of_none {s t : State} (h : t.fault = none) : s.settle t = t.endStep := by
  simp [State.settle, h]

/-- What a step leaves when its instruction left a fault. -/
theorem State.settle_of_some {s t : State} {r : FaultRecord} (h : t.fault = some r) : s.settle t = s.faulted r := by
  simp [State.settle, h]

/-- A fetch that succeeds reads two bytes inside memory, big-endian (R101). -/
theorem fetch_eq_ok {s : State} {op : Word} :
    fetch s = .ok op ↔ s.pc.toNat + 1 < 4096 ∧
      op = wordOfBytes (Memory.read s.mem s.pc.toNat) (Memory.read s.mem (s.pc.toNat + 1)) := by
  unfold fetch memRead
  simp only [Config.memSize]
  by_cases h : s.pc.toNat < 4096
  · by_cases h' : s.pc.toNat + 1 < 4096 <;> simp [h, h', eq_comm]
  · simp only [h, if_false, reduceCtorEq, false_iff]
    omega

/-- A fetch that fails gives the lower of the two addresses that is outside memory (R101). -/
theorem fetch_eq_error {s : State} {a : Nat} :
    fetch s = .error a ↔ 4096 ≤ s.pc.toNat + 1 ∧ a = max s.pc.toNat 4096 := by
  unfold fetch memRead
  simp only [Config.memSize]
  by_cases h : s.pc.toNat < 4096
  · by_cases h' : s.pc.toNat + 1 < 4096
    · simp only [h, h', if_true, reduceCtorEq, false_iff]
      omega
    · simp only [h, h', if_true, if_false, Except.error.injEq]
      omega
  · simp only [h, if_false, Except.error.injEq]
    omega

/-- A fetch depends on PC and memory alone. -/
theorem fetch_congr {s t : State} (h : t.pc = s.pc) (h' : t.mem = s.mem) : fetch t = fetch s := by
  unfold fetch
  rw [h, h']

/-- `raise` answers the faulted state. -/
theorem raise_eq (kind : FaultKind) (info : Nat) (op : Option Word) (s : State) :
    raise kind info op s = .next (s.faulted { kind := kind, pc := s.pc, op := op, info := info }) := rfl

/-- `raiseFrom` answers the faulted state, with the instruction's word in the record. -/
theorem raiseFrom_eq (i : Instr) (kind : FaultKind) (info : Nat) (s : State) :
    raiseFrom i kind info s =
      .next (s.faulted { kind := kind, pc := s.pc, op := some (encode i), info := info }) := rfl

/-- The bits of a word of two bytes, in integers. -/
theorem wordOfBytes_toNat (hi lo : Byte) : (wordOfBytes hi lo).toNat = hi.toNat * 256 + lo.toNat := by
  have := lo.isLt
  rw [wordOfBytes, BitVec.toNat_append, ← Nat.shiftLeft_add_eq_or_of_lt this, Nat.shiftLeft_eq]

end Sys2Proof.Machine
end

