-- ==== Sys2Proof/Laws/Exec.lean ====
section
/-! SUPPORT. What the execution of an instruction can do: it always answers a next state; it raises a fault (and then leaves
everything else alone) or it leaves FAULT, BEEP and the inputs alone. The cases of a step. -/

namespace Sys2Proof.Machine

theorem exec00EE_cases {s t : State} (h : exec .op00EE s = .next t) :
    (s.sp.val = 0 ∧ t = s.faulted ⟨.stackUnderflow, s.pc, some 0x00EE, 0x00EE⟩) ∨
      ∃ k : Fin 16, k.val + 1 = s.sp.val ∧ t = { s with sp := k.castSucc, pc := s.stack[k.val] + 2 } := by
  simp only [exec, exec00EE] at h
  split at h
  · next hp =>
    refine .inl ⟨State.pop_eq_none.mp hp, ?_⟩
    rw [raiseFrom_eq] at h
    cases h
    rfl
  · next ret u hp =>
    obtain ⟨k, hk, rfl, rfl⟩ := State.pop_eq_some.mp hp
    cases h
    exact .inr ⟨k, hk, rfl⟩

theorem exec2NNN_cases {nnn : Addr} {s t : State} (h : exec (.op2NNN nnn) s = .next t) :
    (s.sp.val = 16 ∧
      t = s.faulted ⟨.stackOverflow, s.pc, some (encode (.op2NNN nnn)), (encode (.op2NNN nnn)).toNat⟩) ∨
      ∃ hk : s.sp.val < 16,
        t = { s with
          stack := s.stack.set s.sp.val s.pc
          sp := ⟨s.sp.val + 1, Nat.succ_lt_succ hk⟩
          pc := zextAddr nnn } := by
  simp only [exec, exec2NNN] at h
  split at h
  · next hp =>
    rw [raiseFrom_eq] at h
    cases h
    exact .inl ⟨State.push_eq_none.mp hp, rfl⟩
  · next u hp =>
    obtain ⟨hk, rfl⟩ := State.push_eq_some.mp hp
    cases h
    exact .inr ⟨hk, rfl⟩

theorem keyOperand_eq_none {b : Byte} : keyOperand b = none ↔ 16 ≤ b.toNat := by
  unfold keyOperand
  split <;> simp <;> omega

theorem keyOperand_eq_some {b : Byte} {k : Fin 16} : keyOperand b = some k ↔ k.val = b.toNat := by
  unfold keyOperand
  split
  · next h => simp [Fin.ext_iff, eq_comm]
  · next h =>
    simp only [reduceCtorEq, false_iff]
    have := k.isLt
    omega

theorem execEX9E_cases {x : Reg} {s t : State} (h : exec (.opEX9E x) s = .next t) :
    (16 ≤ (s.readV x).toNat ∧
      t = s.faulted ⟨.keyOutOfRange, s.pc, some (encode (.opEX9E x)), (s.readV x).toNat⟩) ∨
      ((s.readV x).toNat < 16 ∧ t = s.skipIf (s.keysIn.getLsbD (s.readV x).toNat)) := by
  simp only [exec, execEX9E] at h
  split at h
  · next hk =>
    rw [raiseFrom_eq] at h
    cases h
    exact .inl ⟨keyOperand_eq_none.mp hk, rfl⟩
  · next k hk =>
    have := keyOperand_eq_some.mp hk
    cases h
    exact .inr ⟨this ▸ k.isLt, by simp [State.keyDown, this]⟩

theorem execEXA1_cases {x : Reg} {s t : State} (h : exec (.opEXA1 x) s = .next t) :
    (16 ≤ (s.readV x).toNat ∧
      t = s.faulted ⟨.keyOutOfRange, s.pc, some (encode (.opEXA1 x)), (s.readV x).toNat⟩) ∨
      ((s.readV x).toNat < 16 ∧ t = s.skipIf (!s.keysIn.getLsbD (s.readV x).toNat)) := by
  simp only [exec, execEXA1] at h
  split at h
  · next hk =>
    rw [raiseFrom_eq] at h
    cases h
    exact .inl ⟨keyOperand_eq_none.mp hk, rfl⟩
  · next k hk =>
    have := keyOperand_eq_some.mp hk
    cases h
    exact .inr ⟨this ▸ k.isLt, by simp [State.keyDown, this]⟩

theorem execFX1E_cases {x : Reg} {s t : State} (h : exec (.opFX1E x) s = .next t) :
    (0xFFFF < s.i.toNat + (s.readV x).toNat ∧
      t = s.faulted ⟨.indexOverflow, s.pc, some (encode (.opFX1E x)), s.i.toNat + (s.readV x).toNat⟩) ∨
      (s.i.toNat + (s.readV x).toNat ≤ 0xFFFF ∧
        t = { s with pc := s.pc + 2, i := BitVec.ofNat 16 (s.i.toNat + (s.readV x).toNat) }) := by
  simp only [exec, execFX1E] at h
  split at h
  · next hs =>
    rw [raiseFrom_eq] at h
    cases h
    exact .inl ⟨hs, rfl⟩
  · next hs =>
    cases h
    exact .inr ⟨Nat.le_of_not_lt hs, rfl⟩

@[simp] theorem length_bcdDigits (b : Byte) : (bcdDigits b).length = 3 := rfl

@[simp] theorem State.length_regBlock (s : State) (x : Reg) : (s.regBlock x).length = x.val + 1 := by
  simp [State.regBlock]

/-- Byte `r` of a register block is V[r]. -/
theorem State.getElem_regBlock (s : State) (x r : Reg) (h : r.val < (s.regBlock x).length) :
    (s.regBlock x)[r.val] = s.readV r := by
  simp [State.regBlock, State.readV]

theorem execFX33_cases {x : Reg} {s t : State} (h : exec (.opFX33 x) s = .next t) :
    (4096 < s.dataAddr + 3 ∧
      t = s.faulted ⟨.memoryOutOfBounds, s.pc, some (encode (.opFX33 x)), max s.dataAddr 4096⟩) ∨
      (s.dataAddr + 3 ≤ 4096 ∧
        t = { s with pc := s.pc + 2, mem := Memory.storeAll s.mem s.dataAddr (bcdDigits (s.readV x)) }) := by
  simp only [exec, execFX33] at h
  split at h
  · next a ha =>
    obtain ⟨-, h1, rfl⟩ := writeBytes_eq_error.mp ha
    rw [raiseFrom_eq] at h
    cases h
    exact .inl ⟨h1, rfl⟩
  · next m hm =>
    obtain ⟨h1, rfl⟩ := writeBytes_eq_ok.mp hm
    cases h
    exact .inr ⟨h1.resolve_left (by simp), rfl⟩

theorem execFX55_cases {x : Reg} {s t : State} (h : exec (.opFX55 x) s = .next t) :
    (4096 < s.dataAddr + (x.val + 1) ∧
      t = s.faulted ⟨.memoryOutOfBounds, s.pc, some (encode (.opFX55 x)), max s.dataAddr 4096⟩) ∨
      (s.dataAddr + (x.val + 1) ≤ 4096 ∧
        t = { s with pc := s.pc + 2, mem := Memory.storeAll s.mem s.dataAddr (s.regBlock x) }) := by
  simp only [exec, execFX55] at h
  split at h
  · next a ha =>
    obtain ⟨-, h1, rfl⟩ := writeBytes_eq_error.mp ha
    rw [raiseFrom_eq] at h
    cases h
    exact .inl ⟨by simpa using h1, rfl⟩
  · next m hm =>
    obtain ⟨h1, rfl⟩ := writeBytes_eq_ok.mp hm
    cases h
    rw [State.length_regBlock] at h1
    exact .inr ⟨h1.resolve_left (by simp), rfl⟩

theorem execFX65_cases {x : Reg} {s t : State} (h : exec (.opFX65 x) s = .next t) :
    (4096 < s.dataAddr + (x.val + 1) ∧
      t = s.faulted ⟨.memoryOutOfBounds, s.pc, some (encode (.opFX65 x)), max s.dataAddr 4096⟩) ∨
      (s.dataAddr + (x.val + 1) ≤ 4096 ∧
        t = (s.loadRegs (Memory.loadAll s.mem s.dataAddr (x.val + 1))).advance) := by
  simp only [exec, execFX65] at h
  split at h
  · next a ha =>
    obtain ⟨-, h1, rfl⟩ := readBytes_eq_error.mp ha
    rw [raiseFrom_eq] at h
    cases h
    exact .inl ⟨h1, rfl⟩
  · next bs hb =>
    obtain ⟨h1, rfl⟩ := readBytes_eq_ok.mp hb
    cases h
    exact .inr ⟨h1.resolve_left (by simp), rfl⟩

theorem execDXYN_cases {x y : Reg} {n : Nibble} {s t : State} (h : exec (.opDXYN x y n) s = .next t) :
    (n.toNat ≠ 0 ∧ 4096 < s.dataAddr + n.toNat ∧
      t = s.faulted ⟨.memoryOutOfBounds, s.pc, some (encode (.opDXYN x y n)), max s.dataAddr 4096⟩) ∨
      ((n.toNat = 0 ∨ s.dataAddr + n.toNat ≤ 4096) ∧
        t = { (s.writeV vf (collisionFlag s.fb (Memory.loadAll s.mem s.dataAddr n.toNat) (s.readV x).toNat
                (s.readV y).toNat)).advance with
          fb := s.fb.xorSprite (Memory.loadAll s.mem s.dataAddr n.toNat) (s.readV x).toNat (s.readV y).toNat
          rd := true }) := by
  simp only [exec, execDXYN] at h
  split at h
  · next a ha =>
    obtain ⟨h0, h1, rfl⟩ := readBytes_eq_error.mp ha
    rw [raiseFrom_eq] at h
    cases h
    exact .inl ⟨h0, h1, rfl⟩
  · next bs hb =>
    obtain ⟨h1, rfl⟩ := readBytes_eq_ok.mp hb
    cases h
    exact .inr ⟨h1, rfl⟩

theorem execFX0A_cases {x : Reg} {s t : State} (h : exec (.opFX0A x) s = .next t) :
    (∃ k, s.newKey = some k ∧ t = (s.writeV x (BitVec.ofNat 8 k)).advance) ∨
      (s.newKey = none ∧ t = { s with wait := .awaitingKey x }) := by
  simp only [exec, execFX0A] at h
  cases hk : s.newKey with
  | none => rw [hk] at h; cases h; exact .inr ⟨rfl, rfl⟩
  | some k => rw [hk] at h; cases h; exact .inl ⟨k, rfl, rfl⟩

/-- An instruction that answers a next state raised the fault of its own kind, or left FAULT, BEEP, the inputs and the
model's own fields alone. -/
theorem exec_cases {i : Instr} {s t : State} (h : exec i s = .next t) :
    (∃ kind info, i.ownFault = some kind ∧ (⟨kind, s.pc, some (encode i), info⟩ : FaultRecord).asSpecified ∧
      t = s.faulted ⟨kind, s.pc, some (encode i), info⟩) ∨
    (t.fault = s.fault ∧ t.beep = s.beep ∧ t.keysIn = s.keysIn ∧ t.kprev = s.kprev ∧ t.rndIn = s.rndIn ∧
      t.draws = s.draws ∧ t.loadOpen = s.loadOpen) := by
  cases i with
  | op00EE =>
    rcases exec00EE_cases h with ⟨-, rfl⟩ | ⟨k, -, rfl⟩
    · exact .inl ⟨_, _, rfl, by simp [FaultRecord.asSpecified, encode], rfl⟩
    · simp
  | op2NNN nnn =>
    rcases exec2NNN_cases h with ⟨-, rfl⟩ | ⟨k, rfl⟩
    · exact .inl ⟨_, _, rfl, ⟨nnn, rfl, rfl⟩, rfl⟩
    · simp
  | opEX9E x =>
    rcases execEX9E_cases h with ⟨h1, rfl⟩ | ⟨-, rfl⟩
    · exact .inl ⟨_, _, rfl, ⟨h1, Nat.le_of_lt_succ (s.readV x).isLt, .inl ⟨x, rfl⟩⟩, rfl⟩
    · simp
  | opEXA1 x =>
    rcases execEXA1_cases h with ⟨h1, rfl⟩ | ⟨-, rfl⟩
    · exact .inl ⟨_, _, rfl, ⟨h1, Nat.le_of_lt_succ (s.readV x).isLt, .inr ⟨x, rfl⟩⟩, rfl⟩
    · simp
  | opFX1E x =>
    rcases execFX1E_cases h with ⟨h1, rfl⟩ | ⟨-, rfl⟩
    · refine .inl ⟨_, _, rfl, ⟨h1, ?_, x, rfl⟩, rfl⟩
      have := s.i.isLt
      have := (s.readV x).isLt
      simp only
      omega
    · simp
  | opFX33 x =>
    rcases execFX33_cases h with ⟨-, rfl⟩ | ⟨-, rfl⟩
    · exact .inl ⟨_, _, rfl, ⟨Nat.le_max_right _ _, .inr (.inr (.inl ⟨x, rfl⟩))⟩, rfl⟩
    · simp
  | opFX55 x =>
    rcases execFX55_cases h with ⟨-, rfl⟩ | ⟨-, rfl⟩
    · exact .inl ⟨_, _, rfl, ⟨Nat.le_max_right _ _, .inr (.inr (.inr (.inl ⟨x, rfl⟩)))⟩, rfl⟩
    · simp
  | opFX65 x =>
    rcases execFX65_cases h with ⟨-, rfl⟩ | ⟨-, rfl⟩
    · exact .inl ⟨_, _, rfl, ⟨Nat.le_max_right _ _, .inr (.inr (.inr (.inr ⟨x, rfl⟩)))⟩, rfl⟩
    · simp
  | opDXYN x y n =>
    rcases execDXYN_cases h with ⟨-, -, rfl⟩ | ⟨-, rfl⟩
    · exact .inl ⟨_, _, rfl, ⟨Nat.le_max_right _ _, .inr (.inl ⟨x, y, n, rfl⟩)⟩, rfl⟩
    · simp
  | opFX0A x =>
    rcases execFX0A_cases h with ⟨k, -, rfl⟩ | ⟨-, rfl⟩ <;> simp
  | _ => cases h; simp

/-- Every instruction answers a next state: none is refused and none stops the machine. -/
theorem exec_answers (i : Instr) (s : State) : ∃ t, exec i s = .next t := by
  cases i <;> simp only [exec] <;>
    first
    | exact ⟨_, rfl⟩
    | (simp only [exec00EE, exec2NNN, execEX9E, execEXA1, execFX1E, execFX33, execFX55, execFX65, execDXYN, raiseFrom, raise]
       split <;> exact ⟨_, rfl⟩)

/-- The cases of a step that answers a next state (R100): the key-wait check; a fetch or decode fault; or an instruction. -/
theorem step_cases {s t : State} (h : step s = .next t) :
    s.fault = none ∧
      ((∃ x, s.wait = .awaitingKey x ∧ t = (s.startStep.keyWaitCheck x).endStep) ∨
       (s.wait = .running ∧ ∃ a, fetch s = .error a ∧ t = s.faulted ⟨.memoryOutOfBounds, s.pc, none, a⟩) ∨
       (s.wait = .running ∧ ∃ op, fetch s = .ok op ∧ decode op = .error (.unknownOpcode op) ∧
         t = s.faulted ⟨.unknownOpcode, s.pc, some op, op.toNat⟩) ∨
       ∃ i u, s.Fetches i ∧ exec i s.startStep = .next u ∧ t = s.settle u) := by
  unfold step at h
  split at h
  · cases h
  · next hf =>
    refine ⟨hf, ?_⟩
    split at h
    · next x hw =>
      cases h
      exact .inl ⟨x, hw, State.settle_of_none (by simpa using hf)⟩
    · next hw =>
      split at h
      · next a ha => cases h; exact .inr (.inl ⟨hw, a, ha, rfl⟩)
      · next op hop =>
        split at h
        · next e he =>
          cases h
          have := decode_error he
          subst this
          exact .inr (.inr (.inl ⟨hw, op, hop, he, rfl⟩))
        · next i hi =>
          obtain ⟨u, hu⟩ := exec_answers i s.startStep
          rw [hu] at h
          cases h
          exact .inr (.inr (.inr ⟨i, u, ⟨hf, hw, op, hop, hi⟩, hu, rfl⟩))

/-- The step of an engine whose next step runs `i` (R103). -/
theorem step_of_fetches {i : Instr} {s u : State} (hs : s.Fetches i) (hu : exec i s.startStep = .next u) :
    step s = .next (s.settle u) := by
  obtain ⟨hf, hw, op, hop, hi⟩ := hs
  simp [step, hf, hw, hop, hi, hu, finishStep]

/-- An engine's next step runs at most one instruction. -/
theorem State.Fetches.unique {i j : Instr} {s : State} (hi : s.Fetches i) (hj : s.Fetches j) : i = j := by
  obtain ⟨-, -, op, h1, h2⟩ := hi
  obtain ⟨-, -, op', h3, h4⟩ := hj
  rw [h1] at h3
  cases h3
  rw [h2] at h4
  exact Except.ok.inj h4

end Sys2Proof.Machine
end

