-- ==== Sys2Proof/Laws/Frames.lean ====
section
/-! SUPPORT. Frames: they hold of a state and itself, they widen, they compose; the frame of a fault. -/

namespace Sys2Proof.Machine

theorem SameExcept.refl (p : Component → Prop) (s : State) : SameExcept p s s := by
  intro c _
  cases c <;> rfl

/-- A frame may name more components than change. -/
theorem SameExcept.mono {p q : Component → Prop} {s t : State} (h : SameExcept p s t) (hpq : ∀ c, p c → q c) :
    SameExcept q s t := fun c hc => h c fun hp => hc (hpq c hp)

theorem Component.same_trans {c : Component} {s t u : State} (h : c.same s t) (h' : c.same t u) : c.same s u := by
  cases c <;> exact Eq.trans h' h

/-- Two frames one after the other. -/
theorem SameExcept.trans {p : Component → Prop} {s t u : State} (h : SameExcept p s t) (h' : SameExcept p t u) :
    SameExcept p s u := fun c hc => Component.same_trans (h c hc) (h' c hc)

/-- A fault leaves everything but FAULT and BEEP (R111). -/
theorem sameExcept_faulted (s : State) (r : FaultRecord) : SameExceptList [.fault, .beep] s (s.faulted r) := by
  intro c hc
  cases c with
  | fault => simp at hc
  | beep => simp at hc
  | _ => rfl

/-- A jump leaves everything but PC. -/
theorem sameExcept_jump (s : State) (p : Word) : SameExceptList [.pc] s (s.jump p) := by
  intro c hc
  cases c with
  | pc => simp at hc
  | _ => rfl

/-- A register write leaves everything but that register. -/
theorem sameExcept_writeV (s : State) (r : Reg) (b : Byte) : SameExceptList [.v r] s (s.writeV r b) := by
  intro c hc
  cases c with
  | v q => exact State.readV_writeV_ne s (by simpa using hc) b
  | _ => rfl

end Sys2Proof.Machine
end

