-- ==== Sys2Proof/Laws/PerInstr.lean ====
section
/-! SUPPORT. Per-instruction family EncodingRow: every instruction is well-formed, and its word is a word of its own row of
R74 (its fixed bits are the row's match value). -/

namespace Sys2Proof.Laws.EncodingRow

/-- The instruction is well-formed and `encode i & mask = match` for its row of R74. -/
def Statement (i : Instr) : Prop :=
  i.wellFormed = true ∧ ∃ r ∈ opcodeTable, r.mnemonic = i.mnemonic ∧ r.accepts (encode i) = true

/-- Two words with the same 16 bits are the same. -/
theorem eq_of_bits {a b : Word} (h : ∀ k < 16, a.getLsbD k = b.getLsbD k) : a = b :=
  BitVec.eq_of_getLsbD_eq h

theorem formatA_family (f : BitVec 4) (nnn : Addr) : formatA f nnn &&& 0xF000#16 = formatA f 0 := by
  refine eq_of_bits fun k hk => ?_
  simp only [formatA, BitVec.getLsbD_and, BitVec.getLsbD_append]
  interval_cases k <;> simp

theorem formatXK_family (f : BitVec 4) (x : Reg) (nn : Byte) :
    formatXK f x nn &&& 0xF000#16 = formatXK f 0 0 := by
  refine eq_of_bits fun k hk => ?_
  simp only [formatXK, BitVec.getLsbD_and, BitVec.getLsbD_append]
  interval_cases k <;> simp

theorem formatXK_family_sub (f : BitVec 4) (x : Reg) (nn : Byte) :
    formatXK f x nn &&& 0xF0FF#16 = formatXK f 0 nn := by
  refine eq_of_bits fun k hk => ?_
  simp only [formatXK, BitVec.getLsbD_and, BitVec.getLsbD_append]
  interval_cases k <;> simp

theorem formatXYN_family (f : BitVec 4) (x y : Reg) (n : Nibble) :
    formatXYN f x y n &&& 0xF000#16 = formatXYN f 0 0 0 := by
  refine eq_of_bits fun k hk => ?_
  simp only [formatXYN, BitVec.getLsbD_and, BitVec.getLsbD_append]
  interval_cases k <;> simp

theorem formatXYN_family_sub (f : BitVec 4) (x y : Reg) (n : Nibble) :
    formatXYN f x y n &&& 0xF00F#16 = formatXYN f 0 0 n := by
  refine eq_of_bits fun k hk => ?_
  simp only [formatXYN, BitVec.getLsbD_and, BitVec.getLsbD_append]
  interval_cases k <;> simp

theorem op00E0 : Statement (.op00E0) :=
  ⟨by simp [Instr.wellFormed, Instr.row, Instr.mnemonic, opcodeTable, opcodeTableLow, opcodeTableMid, opcodeTableHigh], ⟨"00E0", 0x00E0, 0xFFFF⟩,
    by simp [opcodeTable, opcodeTableLow, opcodeTableMid, opcodeTableHigh], rfl, by decide⟩

theorem op00EE : Statement (.op00EE) :=
  ⟨by simp [Instr.wellFormed, Instr.row, Instr.mnemonic, opcodeTable, opcodeTableLow, opcodeTableMid, opcodeTableHigh], ⟨"00EE", 0x00EE, 0xFFFF⟩,
    by simp [opcodeTable, opcodeTableLow, opcodeTableMid, opcodeTableHigh], rfl, by decide⟩

theorem op1NNN (nnn : Addr) : Statement (.op1NNN nnn) :=
  ⟨by simp [Instr.wellFormed, Instr.row, Instr.mnemonic, opcodeTable, opcodeTableLow, opcodeTableMid, opcodeTableHigh], ⟨"1NNN", 0x1000, 0xF000⟩,
    by simp [opcodeTable, opcodeTableLow, opcodeTableMid, opcodeTableHigh], rfl, beq_iff_eq.mpr ((formatA_family _ _).trans (by decide))⟩

theorem op2NNN (nnn : Addr) : Statement (.op2NNN nnn) :=
  ⟨by simp [Instr.wellFormed, Instr.row, Instr.mnemonic, opcodeTable, opcodeTableLow, opcodeTableMid, opcodeTableHigh], ⟨"2NNN", 0x2000, 0xF000⟩,
    by simp [opcodeTable, opcodeTableLow, opcodeTableMid, opcodeTableHigh], rfl, beq_iff_eq.mpr ((formatA_family _ _).trans (by decide))⟩

theorem op3XNN (x : Reg) (nn : Byte) : Statement (.op3XNN x nn) :=
  ⟨by simp [Instr.wellFormed, Instr.row, Instr.mnemonic, opcodeTable, opcodeTableLow, opcodeTableMid, opcodeTableHigh], ⟨"3XNN", 0x3000, 0xF000⟩,
    by simp [opcodeTable, opcodeTableLow, opcodeTableMid, opcodeTableHigh], rfl, beq_iff_eq.mpr ((formatXK_family _ _ _).trans (by decide))⟩

theorem op4XNN (x : Reg) (nn : Byte) : Statement (.op4XNN x nn) :=
  ⟨by simp [Instr.wellFormed, Instr.row, Instr.mnemonic, opcodeTable, opcodeTableLow, opcodeTableMid, opcodeTableHigh], ⟨"4XNN", 0x4000, 0xF000⟩,
    by simp [opcodeTable, opcodeTableLow, opcodeTableMid, opcodeTableHigh], rfl, beq_iff_eq.mpr ((formatXK_family _ _ _).trans (by decide))⟩

theorem op5XY0 (x y : Reg) : Statement (.op5XY0 x y) :=
  ⟨by simp [Instr.wellFormed, Instr.row, Instr.mnemonic, opcodeTable, opcodeTableLow, opcodeTableMid, opcodeTableHigh], ⟨"5XY0", 0x5000, 0xF00F⟩,
    by simp [opcodeTable, opcodeTableLow, opcodeTableMid, opcodeTableHigh], rfl, beq_iff_eq.mpr ((formatXYN_family_sub _ _ _ _).trans (by decide))⟩

theorem op6XNN (x : Reg) (nn : Byte) : Statement (.op6XNN x nn) :=
  ⟨by simp [Instr.wellFormed, Instr.row, Instr.mnemonic, opcodeTable, opcodeTableLow, opcodeTableMid, opcodeTableHigh], ⟨"6XNN", 0x6000, 0xF000⟩,
    by simp [opcodeTable, opcodeTableLow, opcodeTableMid, opcodeTableHigh], rfl, beq_iff_eq.mpr ((formatXK_family _ _ _).trans (by decide))⟩

theorem op7XNN (x : Reg) (nn : Byte) : Statement (.op7XNN x nn) :=
  ⟨by simp [Instr.wellFormed, Instr.row, Instr.mnemonic, opcodeTable, opcodeTableLow, opcodeTableMid, opcodeTableHigh], ⟨"7XNN", 0x7000, 0xF000⟩,
    by simp [opcodeTable, opcodeTableLow, opcodeTableMid, opcodeTableHigh], rfl, beq_iff_eq.mpr ((formatXK_family _ _ _).trans (by decide))⟩

theorem op8XY0 (x y : Reg) : Statement (.op8XY0 x y) :=
  ⟨by simp [Instr.wellFormed, Instr.row, Instr.mnemonic, opcodeTable, opcodeTableLow, opcodeTableMid, opcodeTableHigh], ⟨"8XY0", 0x8000, 0xF00F⟩,
    by simp [opcodeTable, opcodeTableLow, opcodeTableMid, opcodeTableHigh], rfl, beq_iff_eq.mpr ((formatXYN_family_sub _ _ _ _).trans (by decide))⟩

theorem op8XY1 (x y : Reg) : Statement (.op8XY1 x y) :=
  ⟨by simp [Instr.wellFormed, Instr.row, Instr.mnemonic, opcodeTable, opcodeTableLow, opcodeTableMid, opcodeTableHigh], ⟨"8XY1", 0x8001, 0xF00F⟩,
    by simp [opcodeTable, opcodeTableLow, opcodeTableMid, opcodeTableHigh], rfl, beq_iff_eq.mpr ((formatXYN_family_sub _ _ _ _).trans (by decide))⟩

theorem op8XY2 (x y : Reg) : Statement (.op8XY2 x y) :=
  ⟨by simp [Instr.wellFormed, Instr.row, Instr.mnemonic, opcodeTable, opcodeTableLow, opcodeTableMid, opcodeTableHigh], ⟨"8XY2", 0x8002, 0xF00F⟩,
    by simp [opcodeTable, opcodeTableLow, opcodeTableMid, opcodeTableHigh], rfl, beq_iff_eq.mpr ((formatXYN_family_sub _ _ _ _).trans (by decide))⟩

theorem op8XY3 (x y : Reg) : Statement (.op8XY3 x y) :=
  ⟨by simp [Instr.wellFormed, Instr.row, Instr.mnemonic, opcodeTable, opcodeTableLow, opcodeTableMid, opcodeTableHigh], ⟨"8XY3", 0x8003, 0xF00F⟩,
    by simp [opcodeTable, opcodeTableLow, opcodeTableMid, opcodeTableHigh], rfl, beq_iff_eq.mpr ((formatXYN_family_sub _ _ _ _).trans (by decide))⟩

theorem op8XY4 (x y : Reg) : Statement (.op8XY4 x y) :=
  ⟨by simp [Instr.wellFormed, Instr.row, Instr.mnemonic, opcodeTable, opcodeTableLow, opcodeTableMid, opcodeTableHigh], ⟨"8XY4", 0x8004, 0xF00F⟩,
    by simp [opcodeTable, opcodeTableLow, opcodeTableMid, opcodeTableHigh], rfl, beq_iff_eq.mpr ((formatXYN_family_sub _ _ _ _).trans (by decide))⟩

theorem op8XY5 (x y : Reg) : Statement (.op8XY5 x y) :=
  ⟨by simp [Instr.wellFormed, Instr.row, Instr.mnemonic, opcodeTable, opcodeTableLow, opcodeTableMid, opcodeTableHigh], ⟨"8XY5", 0x8005, 0xF00F⟩,
    by simp [opcodeTable, opcodeTableLow, opcodeTableMid, opcodeTableHigh], rfl, beq_iff_eq.mpr ((formatXYN_family_sub _ _ _ _).trans (by decide))⟩

theorem op8XY6 (x y : Reg) : Statement (.op8XY6 x y) :=
  ⟨by simp [Instr.wellFormed, Instr.row, Instr.mnemonic, opcodeTable, opcodeTableLow, opcodeTableMid, opcodeTableHigh], ⟨"8XY6", 0x8006, 0xF00F⟩,
    by simp [opcodeTable, opcodeTableLow, opcodeTableMid, opcodeTableHigh], rfl, beq_iff_eq.mpr ((formatXYN_family_sub _ _ _ _).trans (by decide))⟩

theorem op8XY7 (x y : Reg) : Statement (.op8XY7 x y) :=
  ⟨by simp [Instr.wellFormed, Instr.row, Instr.mnemonic, opcodeTable, opcodeTableLow, opcodeTableMid, opcodeTableHigh], ⟨"8XY7", 0x8007, 0xF00F⟩,
    by simp [opcodeTable, opcodeTableLow, opcodeTableMid, opcodeTableHigh], rfl, beq_iff_eq.mpr ((formatXYN_family_sub _ _ _ _).trans (by decide))⟩

theorem op8XYE (x y : Reg) : Statement (.op8XYE x y) :=
  ⟨by simp [Instr.wellFormed, Instr.row, Instr.mnemonic, opcodeTable, opcodeTableLow, opcodeTableMid, opcodeTableHigh], ⟨"8XYE", 0x800E, 0xF00F⟩,
    by simp [opcodeTable, opcodeTableLow, opcodeTableMid, opcodeTableHigh], rfl, beq_iff_eq.mpr ((formatXYN_family_sub _ _ _ _).trans (by decide))⟩

theorem op9XY0 (x y : Reg) : Statement (.op9XY0 x y) :=
  ⟨by simp [Instr.wellFormed, Instr.row, Instr.mnemonic, opcodeTable, opcodeTableLow, opcodeTableMid, opcodeTableHigh], ⟨"9XY0", 0x9000, 0xF00F⟩,
    by simp [opcodeTable, opcodeTableLow, opcodeTableMid, opcodeTableHigh], rfl, beq_iff_eq.mpr ((formatXYN_family_sub _ _ _ _).trans (by decide))⟩

theorem opANNN (nnn : Addr) : Statement (.opANNN nnn) :=
  ⟨by simp [Instr.wellFormed, Instr.row, Instr.mnemonic, opcodeTable, opcodeTableLow, opcodeTableMid, opcodeTableHigh], ⟨"ANNN", 0xA000, 0xF000⟩,
    by simp [opcodeTable, opcodeTableLow, opcodeTableMid, opcodeTableHigh], rfl, beq_iff_eq.mpr ((formatA_family _ _).trans (by decide))⟩

theorem opBNNN (nnn : Addr) : Statement (.opBNNN nnn) :=
  ⟨by simp [Instr.wellFormed, Instr.row, Instr.mnemonic, opcodeTable, opcodeTableLow, opcodeTableMid, opcodeTableHigh], ⟨"BNNN", 0xB000, 0xF000⟩,
    by simp [opcodeTable, opcodeTableLow, opcodeTableMid, opcodeTableHigh], rfl, beq_iff_eq.mpr ((formatA_family _ _).trans (by decide))⟩

theorem opCXNN (x : Reg) (nn : Byte) : Statement (.opCXNN x nn) :=
  ⟨by simp [Instr.wellFormed, Instr.row, Instr.mnemonic, opcodeTable, opcodeTableLow, opcodeTableMid, opcodeTableHigh], ⟨"CXNN", 0xC000, 0xF000⟩,
    by simp [opcodeTable, opcodeTableLow, opcodeTableMid, opcodeTableHigh], rfl, beq_iff_eq.mpr ((formatXK_family _ _ _).trans (by decide))⟩

theorem opDXYN (x y : Reg) (n : Nibble) : Statement (.opDXYN x y n) :=
  ⟨by simp [Instr.wellFormed, Instr.row, Instr.mnemonic, opcodeTable, opcodeTableLow, opcodeTableMid, opcodeTableHigh], ⟨"DXYN", 0xD000, 0xF000⟩,
    by simp [opcodeTable, opcodeTableLow, opcodeTableMid, opcodeTableHigh], rfl, beq_iff_eq.mpr ((formatXYN_family _ _ _ _).trans (by decide))⟩

theorem opEX9E (x : Reg) : Statement (.opEX9E x) :=
  ⟨by simp [Instr.wellFormed, Instr.row, Instr.mnemonic, opcodeTable, opcodeTableLow, opcodeTableMid, opcodeTableHigh], ⟨"EX9E", 0xE09E, 0xF0FF⟩,
    by simp [opcodeTable, opcodeTableLow, opcodeTableMid, opcodeTableHigh], rfl, beq_iff_eq.mpr ((formatXK_family_sub _ _ _).trans (by decide))⟩

theorem opEXA1 (x : Reg) : Statement (.opEXA1 x) :=
  ⟨by simp [Instr.wellFormed, Instr.row, Instr.mnemonic, opcodeTable, opcodeTableLow, opcodeTableMid, opcodeTableHigh], ⟨"EXA1", 0xE0A1, 0xF0FF⟩,
    by simp [opcodeTable, opcodeTableLow, opcodeTableMid, opcodeTableHigh], rfl, beq_iff_eq.mpr ((formatXK_family_sub _ _ _).trans (by decide))⟩

theorem opFX07 (x : Reg) : Statement (.opFX07 x) :=
  ⟨by simp [Instr.wellFormed, Instr.row, Instr.mnemonic, opcodeTable, opcodeTableLow, opcodeTableMid, opcodeTableHigh], ⟨"FX07", 0xF007, 0xF0FF⟩,
    by simp [opcodeTable, opcodeTableLow, opcodeTableMid, opcodeTableHigh], rfl, beq_iff_eq.mpr ((formatXK_family_sub _ _ _).trans (by decide))⟩

theorem opFX0A (x : Reg) : Statement (.opFX0A x) :=
  ⟨by simp [Instr.wellFormed, Instr.row, Instr.mnemonic, opcodeTable, opcodeTableLow, opcodeTableMid, opcodeTableHigh], ⟨"FX0A", 0xF00A, 0xF0FF⟩,
    by simp [opcodeTable, opcodeTableLow, opcodeTableMid, opcodeTableHigh], rfl, beq_iff_eq.mpr ((formatXK_family_sub _ _ _).trans (by decide))⟩

theorem opFX15 (x : Reg) : Statement (.opFX15 x) :=
  ⟨by simp [Instr.wellFormed, Instr.row, Instr.mnemonic, opcodeTable, opcodeTableLow, opcodeTableMid, opcodeTableHigh], ⟨"FX15", 0xF015, 0xF0FF⟩,
    by simp [opcodeTable, opcodeTableLow, opcodeTableMid, opcodeTableHigh], rfl, beq_iff_eq.mpr ((formatXK_family_sub _ _ _).trans (by decide))⟩

theorem opFX18 (x : Reg) : Statement (.opFX18 x) :=
  ⟨by simp [Instr.wellFormed, Instr.row, Instr.mnemonic, opcodeTable, opcodeTableLow, opcodeTableMid, opcodeTableHigh], ⟨"FX18", 0xF018, 0xF0FF⟩,
    by simp [opcodeTable, opcodeTableLow, opcodeTableMid, opcodeTableHigh], rfl, beq_iff_eq.mpr ((formatXK_family_sub _ _ _).trans (by decide))⟩

theorem opFX1E (x : Reg) : Statement (.opFX1E x) :=
  ⟨by simp [Instr.wellFormed, Instr.row, Instr.mnemonic, opcodeTable, opcodeTableLow, opcodeTableMid, opcodeTableHigh], ⟨"FX1E", 0xF01E, 0xF0FF⟩,
    by simp [opcodeTable, opcodeTableLow, opcodeTableMid, opcodeTableHigh], rfl, beq_iff_eq.mpr ((formatXK_family_sub _ _ _).trans (by decide))⟩

theorem opFX29 (x : Reg) : Statement (.opFX29 x) :=
  ⟨by simp [Instr.wellFormed, Instr.row, Instr.mnemonic, opcodeTable, opcodeTableLow, opcodeTableMid, opcodeTableHigh], ⟨"FX29", 0xF029, 0xF0FF⟩,
    by simp [opcodeTable, opcodeTableLow, opcodeTableMid, opcodeTableHigh], rfl, beq_iff_eq.mpr ((formatXK_family_sub _ _ _).trans (by decide))⟩

theorem opFX33 (x : Reg) : Statement (.opFX33 x) :=
  ⟨by simp [Instr.wellFormed, Instr.row, Instr.mnemonic, opcodeTable, opcodeTableLow, opcodeTableMid, opcodeTableHigh], ⟨"FX33", 0xF033, 0xF0FF⟩,
    by simp [opcodeTable, opcodeTableLow, opcodeTableMid, opcodeTableHigh], rfl, beq_iff_eq.mpr ((formatXK_family_sub _ _ _).trans (by decide))⟩

theorem opFX55 (x : Reg) : Statement (.opFX55 x) :=
  ⟨by simp [Instr.wellFormed, Instr.row, Instr.mnemonic, opcodeTable, opcodeTableLow, opcodeTableMid, opcodeTableHigh], ⟨"FX55", 0xF055, 0xF0FF⟩,
    by simp [opcodeTable, opcodeTableLow, opcodeTableMid, opcodeTableHigh], rfl, beq_iff_eq.mpr ((formatXK_family_sub _ _ _).trans (by decide))⟩

theorem opFX65 (x : Reg) : Statement (.opFX65 x) :=
  ⟨by simp [Instr.wellFormed, Instr.row, Instr.mnemonic, opcodeTable, opcodeTableLow, opcodeTableMid, opcodeTableHigh], ⟨"FX65", 0xF065, 0xF0FF⟩,
    by simp [opcodeTable, opcodeTableLow, opcodeTableMid, opcodeTableHigh], rfl, beq_iff_eq.mpr ((formatXK_family_sub _ _ _).trans (by decide))⟩

end Sys2Proof.Laws.EncodingRow
end

