-- ==== Sys2Proof/Tests/Slice0.lean ====
section
/-! SUPPORT. Tests: ill-formed words, every constructor's word written out from the formats of R72, single steps with the
results that spec/95_test_vectors.md gives (the row is named at each test), and a witness for the hypotheses of every
obligation that has some. -/

namespace Sys2Proof.Tests

open Sys2Proof.Machine

/-! ## Helpers -/

/-- The state after construction, with the word `w` at 0x0200. -/
def start (w : Nat) : State := State.reset.withFetchWord 16 w

/-- A register file with the listed values and 0 elsewhere. -/
def regs (l : List (Reg × Byte)) : Vector Byte 16 := l.foldl (fun v e => v.set e.1.val e.2) (Vector.replicate 16 0)

/-- A framebuffer with the listed pixels on. -/
def lit (l : List (Nat × Nat)) : Framebuffer := l.foldl (fun fb e => fb.flip e.1 e.2) (Vector.replicate 32 0)

/-- One step from `s` ends in a next state that `p` holds of. -/
def after (s : State) (p : State → Bool) : Bool :=
  match step s with
  | .next t => p t
  | .fault _ => false
  | .refused _ => false

/-- The execution of `i` from `s` ends in a next state that `p` holds of. -/
def runs (i : Instr) (s : State) (p : State → Bool) : Bool :=
  match exec i s with
  | .next t => p t
  | .fault _ => false
  | .refused _ => false

theorem exists_of_after {s : State} {p : State → Bool} (h : after s p = true) : ∃ t, step s = .next t ∧ p t = true := by
  unfold after at h
  split at h
  · next t ht => exact ⟨t, ht, h⟩
  · cases h
  · cases h

theorem exists_of_runs {i : Instr} {s : State} {p : State → Bool} (h : runs i s p = true) :
    ∃ t, exec i s = .next t ∧ p t = true := by
  unfold runs at h
  split at h
  · next t ht => exact ⟨t, ht, h⟩
  · cases h
  · cases h

/-- The record that a step from `start w` leaves. -/
def recordOf (kind : FaultKind) (w info : Nat) : Option FaultRecord := some ⟨kind, 0x200, some (BitVec.ofNat 16 w), info⟩

/-! ## Ill-formed words (R76; L2-F6) and the table -/

theorem test_wellFormed_family0 : ([0x0000, 0x00E1, 0x0123, 0x0FEE].map wellFormedWord).any id = false := by decide
theorem test_wellFormed_family5 : ([0x5121, 0x512F].map wellFormedWord).any id = false := by decide
theorem test_wellFormed_family8 : ([0x8128, 0x812D, 0x800F].map wellFormedWord).any id = false := by decide
theorem test_wellFormed_family9 : ([0x9128, 0x9121].map wellFormedWord).any id = false := by decide
theorem test_wellFormed_familyE : ([0xE09F, 0xE59F, 0xE0A0].map wellFormedWord).any id = false := by decide
theorem test_wellFormed_familyF : ([0xF000, 0xF0FF, 0xFFFF, 0xF034].map wellFormedWord).any id = false := by decide
theorem test_wellFormed_accepts : ([0x00E0, 0x00EE, 0x5120, 0x812E, 0xE5A1, 0xF065].map wellFormedWord).all id = true := by
  decide
theorem test_decode_truncated : decodeBytes [0x60] = .error .truncated := by rfl
theorem test_opcodeTable_length : opcodeTable.length = 34 := by decide
theorem test_fault_codes :
    [FaultKind.unknownOpcode, .stackOverflow, .stackUnderflow, .memoryOutOfBounds, .indexOverflow, .keyOutOfRange].map
      FaultKind.code = [1, 2, 3, 4, 5, 6] := by decide
theorem test_reset_memory_wf : State.reset.mem.wf = true := by decide

/-! ## Decoding: every constructor's word, bit by bit from R72 and R74 -/

theorem test_decode_control :
    decode 0b0000_0000_1110_1110 = .ok .op00EE ∧ decode 0b0001_0010_0011_0100 = .ok (.op1NNN 0x234) ∧
      decode 0b0010_0011_0000_0000 = .ok (.op2NNN 0x300) ∧ decode 0b1011_0011_0000_0001 = .ok (.opBNNN 0x301) := by
  decide
theorem test_decode_skips :
    decode 0b0011_0011_0100_0010 = .ok (.op3XNN 3 0x42) ∧ decode 0b0100_0011_0100_0010 = .ok (.op4XNN 3 0x42) ∧
      decode 0b0101_0001_0010_0000 = .ok (.op5XY0 1 2) ∧ decode 0b1001_0001_0010_0000 = .ok (.op9XY0 1 2) ∧
      decode 0b1110_0101_1001_1110 = .ok (.opEX9E 5) ∧ decode 0b1110_0101_1010_0001 = .ok (.opEXA1 5) := by
  decide
theorem test_decode_immediate :
    decode 0b0110_1010_0010_1111 = .ok (.op6XNN 10 0x2F) ∧ decode 0b0111_0010_0000_1010 = .ok (.op7XNN 2 0x0A) ∧
      decode 0b1100_0011_0000_1111 = .ok (.opCXNN 3 0x0F) := by
  decide
theorem test_decode_family8 :
    decode 0b1000_0001_0010_0000 = .ok (.op8XY0 1 2) ∧ decode 0b1000_0001_0010_0001 = .ok (.op8XY1 1 2) ∧
      decode 0b1000_0001_0010_0010 = .ok (.op8XY2 1 2) ∧ decode 0b1000_0001_0010_0011 = .ok (.op8XY3 1 2) ∧
      decode 0b1000_0001_0010_0100 = .ok (.op8XY4 1 2) ∧ decode 0b1000_0001_0010_0101 = .ok (.op8XY5 1 2) ∧
      decode 0b1000_0001_0010_0110 = .ok (.op8XY6 1 2) ∧ decode 0b1000_0001_0010_0111 = .ok (.op8XY7 1 2) ∧
      decode 0b1000_0001_0010_1110 = .ok (.op8XYE 1 2) := by
  decide
theorem test_decode_index :
    decode 0b1010_0010_1111_0000 = .ok (.opANNN 0x2F0) ∧ decode 0b1111_0010_0001_1110 = .ok (.opFX1E 2) ∧
      decode 0b1111_0000_0010_1001 = .ok (.opFX29 0) ∧ decode 0b1111_0101_0011_0011 = .ok (.opFX33 5) ∧
      decode 0b1111_1111_0101_0101 = .ok (.opFX55 15) ∧ decode 0b1111_0010_0110_0101 = .ok (.opFX65 2) := by
  decide
theorem test_decode_display :
    decode 0b0000_0000_1110_0000 = .ok .op00E0 ∧ decode 0b1101_0000_0001_0101 = .ok (.opDXYN 0 1 5) := by
  decide
theorem test_decode_timers :
    decode 0b1111_0011_0000_0111 = .ok (.opFX07 3) ∧ decode 0b1111_0010_0000_1010 = .ok (.opFX0A 2) ∧
      decode 0b1111_0001_0001_0101 = .ok (.opFX15 1) ∧ decode 0b1111_0001_0001_1000 = .ok (.opFX18 1) := by
  decide
theorem test_decodeTableWord : decodeTableWord 16 0xD015 = some (.opDXYN 0 1 5) ∧ decodeTableWord 16 0x5121 = none := by
  decide

/-! ## The step frame -/

/-- L2-F8: a faulting step has no tick and no KPREV update. -/
theorem test_step_fault_keeps_state :
    after { start 0x0000 with dt := 5, st := 1, keysIn := 3 } (fun t => t.fault == recordOf .unknownOpcode 0 0 &&
      t.dt == 5 && t.st == 1 && !t.beep && t.kprev == 0 && t.pc == 0x200) = true := by decide
/-- L2-F2. -/
theorem test_step_fetch_4095 :
    after { State.reset with pc := 0xFFF } (fun t => t.fault == some ⟨.memoryOutOfBounds, 0xFFF, none, 0x1000⟩) = true := by
  decide
/-- L2-F4: an odd PC fetches normally. -/
theorem test_step_odd_pc :
    after ({ State.reset with pc := 0x201 }.withFetchWord 16 0x6A2B) (fun t => t.readV 10 == 0x2B && t.pc == 0x203) =
      true := by decide

/-! ## Control transfer -/

/-- L2-C6. -/
theorem test_00EE_returns :
    after { start 0x00EE with sp := 1, stack := (Vector.replicate 16 0).set 0 0x200 } (fun t => t.sp == 0 &&
      t.pc == 0x202 && t.stack[0] == 0x200) = true := by decide
/-- L2-C5. -/
theorem test_00EE_underflow :
    after (start 0x00EE) (fun t => t.fault == recordOf .stackUnderflow 0x00EE 0x00EE && t.pc == 0x200) = true := by decide
/-- L2-C1. -/
theorem test_1NNN : after (start 0x1234) (fun t => t.pc == 0x234) = true := by decide
/-- L2-C3. -/
theorem test_2NNN_pushes_own_address :
    after (start 0x2300) (fun t => t.stack[0] == 0x200 && t.sp == 1 && t.pc == 0x300) = true := by decide
/-- L2-C4. -/
theorem test_2NNN_overflow :
    after { start 0x2300 with sp := 16 } (fun t => t.fault == recordOf .stackOverflow 0x2300 0x2300 && t.sp == 16 &&
      t.pc == 0x200) = true := by decide
/-- L2-C9. -/
theorem test_BNNN_no_mask : after { start 0xBFFF with v := regs [(0, 0xFF)] } (fun t => t.pc == 0x10FE) = true := by decide
/-- L2-C10: the X nibble selects no register. -/
theorem test_BNNN_reads_V0 : after { start 0xB5AA with v := regs [(5, 0x77)] } (fun t => t.pc == 0x5AA) = true := by decide

/-! ## Skips -/

/-- L2-S1, L2-S2. -/
theorem test_3XNN :
    after { start 0x3342 with v := regs [(3, 0x42)] } (·.pc == 0x204) = true ∧
      after { start 0x3342 with v := regs [(3, 0x41)] } (·.pc == 0x202) = true := by decide
/-- L2-S3, L2-S4. -/
theorem test_4XNN :
    after { start 0x4342 with v := regs [(3, 0x41)] } (·.pc == 0x204) = true ∧
      after { start 0x4342 with v := regs [(3, 0x42)] } (·.pc == 0x202) = true := by decide
/-- L2-S5, L2-S6. -/
theorem test_5XY0 :
    after { start 0x5120 with v := regs [(1, 7), (2, 7)] } (·.pc == 0x204) = true ∧
      after { start 0x5120 with v := regs [(1, 7), (2, 8)] } (·.pc == 0x202) = true := by decide
/-- L2-S7, L2-S8. -/
theorem test_9XY0 :
    after { start 0x9120 with v := regs [(1, 7), (2, 8)] } (·.pc == 0x204) = true ∧
      after { start 0x9120 with v := regs [(1, 7), (2, 7)] } (·.pc == 0x202) = true := by decide
/-- L2-S10, L2-S11. -/
theorem test_EX9E :
    after { start 0xE59E with v := regs [(5, 0xA)], keysIn := 0x400 } (fun t => t.pc == 0x204 && t.kprev == 0x400) = true ∧
      after { start 0xE59E with v := regs [(5, 0xA)] } (·.pc == 0x202) = true := by decide
/-- L2-S12. -/
theorem test_EX9E_bad_key :
    after { start 0xE59E with v := regs [(5, 0x10)] } (·.fault == recordOf .keyOutOfRange 0xE59E 0x10) = true := by decide
/-- L2-S13, L2-S14. -/
theorem test_EXA1 :
    after { start 0xE5A1 with v := regs [(5, 0xA)] } (·.pc == 0x204) = true ∧
      after { start 0xE5A1 with v := regs [(5, 0xA)], keysIn := 0x400 } (·.pc == 0x202) = true := by decide
/-- L2-S15. -/
theorem test_EXA1_bad_key :
    after { start 0xE5A1 with v := regs [(5, 0xFF)] } (·.fault == recordOf .keyOutOfRange 0xE5A1 0xFF) = true := by decide

/-! ## Registers and arithmetic -/

/-- L2-A1. -/
theorem test_6XNN : after (start 0x6A2B) (fun t => t.readV 10 == 0x2B && t.pc == 0x202) = true := by decide
/-- L2-A2. -/
theorem test_7XNN_no_flag :
    after { start 0x7A01 with v := regs [(10, 0xFF), (15, 5)] } (fun t => t.readV 10 == 0 && t.readV vf == 5) = true := by
  decide
/-- L2-A3. -/
theorem test_8XY0 : after { start 0x8120 with v := regs [(2, 0x33)] } (·.readV 1 == 0x33) = true := by decide
/-- L2-A4. -/
theorem test_8XY1 :
    after { start 0x8121 with v := regs [(1, 0xF0), (2, 0x0F), (15, 7)] } (fun t => t.readV 1 == 0xFF && t.readV vf == 7) =
      true := by decide
/-- L2-A5. -/
theorem test_8XY2 :
    after { start 0x8122 with v := regs [(1, 0xF0), (2, 0x3C), (15, 7)] } (fun t => t.readV 1 == 0x30 && t.readV vf == 7) =
      true := by decide
/-- L2-A6. -/
theorem test_8XY3 :
    after { start 0x8123 with v := regs [(1, 0xFF), (2, 0x0F), (15, 7)] } (fun t => t.readV 1 == 0xF0 && t.readV vf == 7) =
      true := by decide
/-- L1-2. -/
theorem test_8XY4_carry :
    after { start 0x8AB4 with v := regs [(10, 250), (11, 10)] } (fun t => t.readV 10 == 4 && t.readV vf == 1) = true := by
  decide
/-- L2-A10, L2-A11: X = F keeps the sum, Y = F reads the old VF. -/
theorem test_8XY4_with_VF :
    after { start 0x8F14 with v := regs [(15, 0x80), (1, 0x90)] } (·.readV vf == 0x10) = true ∧
      after { start 0x81F4 with v := regs [(15, 0xF5), (1, 0x10)] } (fun t => t.readV 1 == 5 && t.readV vf == 1) = true := by
  decide
/-- L1-3. -/
theorem test_8XY5_borrow :
    after { start 0x8AB5 with v := regs [(10, 3), (11, 5)] } (fun t => t.readV 10 == 254 && t.readV vf == 0) = true := by
  decide
/-- L2-A12: no borrow when the operands are equal. -/
theorem test_8XY5_equal :
    after { start 0x8125 with v := regs [(1, 9), (2, 9)] } (fun t => t.readV 1 == 0 && t.readV vf == 1) = true := by decide
/-- L2-A15: Y is ignored. -/
theorem test_8XY6_ignores_Y :
    after { start 0x8176 with v := regs [(1, 2), (7, 0xFF), (15, 9)] } (fun t => t.readV 1 == 1 && t.readV vf == 0) = true := by
  decide
/-- L2-A14, L2-A16. -/
theorem test_8XY6 :
    after { start 0x8106 with v := regs [(1, 0x81)] } (fun t => t.readV 1 == 0x40 && t.readV vf == 1) = true ∧
      after { start 0x8F06 with v := regs [(15, 0x81)] } (·.readV vf == 0x40) = true := by decide
/-- L2-A17, L2-A18. -/
theorem test_8XY7 :
    after { start 0x8127 with v := regs [(1, 5), (2, 3)] } (fun t => t.readV 1 == 0xFE && t.readV vf == 0) = true ∧
      after { start 0x8127 with v := regs [(1, 3), (2, 5)] } (fun t => t.readV 1 == 2 && t.readV vf == 1) = true := by decide
/-- L2-A20, L2-A21. -/
theorem test_8XYE :
    after { start 0x810E with v := regs [(1, 0x81)] } (fun t => t.readV 1 == 2 && t.readV vf == 1) = true ∧
      after { start 0x810E with v := regs [(1, 0x40), (15, 1)] } (fun t => t.readV 1 == 0x80 && t.readV vf == 0) = true := by
  decide
/-- L2-A23. -/
theorem test_CXNN : after { start 0xC30F with rndIn := 0xAB } (·.readV 3 == 0x0B) = true := by decide

/-! ## Index and memory blocks -/

/-- L2-M1. -/
theorem test_ANNN : after (start 0xA2F0) (fun t => t.i == 0x2F0 && t.pc == 0x202) = true := by decide
/-- L2-M3: no 12-bit mask and no flag. -/
theorem test_FX1E :
    after { start 0xF21E with i := 0xFFF, v := regs [(2, 1), (15, 3)] } (fun t => t.i == 0x1000 && t.readV vf == 3) = true := by
  decide
/-- L2-M4. -/
theorem test_FX1E_overflow :
    after { start 0xF21E with i := 0xFFFF, v := regs [(2, 1)] } (fun t => t.fault == recordOf .indexOverflow 0xF21E 0x10000 &&
      t.i == 0xFFFF) = true := by decide
/-- L2-M5. -/
theorem test_FX29 :
    after { start 0xF029 with v := regs [(0, 0x0F)] } (·.i == 75) = true ∧
      after { start 0xF029 with v := regs [(0, 0x1A)] } (·.i == 50) = true := by decide
/-- L1-7. -/
theorem test_FX33 :
    after { start 0xF333 with v := regs [(3, 234)] } (fun t => Memory.loadAll t.mem 0 3 == [2, 3, 4] && t.i == 0) = true := by
  decide
/-- L2-M8: nothing is written. -/
theorem test_FX33_fault :
    after { start 0xF333 with v := regs [(3, 123)], i := 0xFFE } (fun t =>
      t.fault == recordOf .memoryOutOfBounds 0xF333 0x1000 && Memory.loadAll t.mem 0xFFE 2 == [0, 0]) = true := by decide
/-- L2-M10. -/
theorem test_FX55 :
    after { start 0xFF55 with v := regs [(0, 0x11), (15, 0xEE)], i := 0xFF0 } (fun t => Memory.read t.mem 0xFF0 == 0x11 &&
      Memory.read t.mem 0xFFE == 0 && Memory.read t.mem 0xFFF == 0xEE && t.i == 0xFF0) = true := by decide
/-- L2-M11. -/
theorem test_FX55_fault :
    after { start 0xFF55 with v := regs [(0, 0x11)], i := 0xFF1 } (fun t =>
      t.fault == recordOf .memoryOutOfBounds 0xFF55 0x1000 && Memory.read t.mem 0xFF1 == 0) = true := by decide
/-- L2-M13: the first bytes of the default font, VF included. -/
theorem test_FX65 :
    after (start 0xFF65) (fun t => t.v.toList ==
      [0xF0, 0x90, 0x90, 0x90, 0xF0, 0x20, 0x60, 0x20, 0x20, 0x70, 0xF0, 0x10, 0xF0, 0x80, 0xF0, 0xF0]) = true := by decide
/-- L2-M14. -/
theorem test_FX65_fault :
    after { start 0xF065 with i := 0x1000 } (·.fault == recordOf .memoryOutOfBounds 0xF065 0x1000) = true := by decide

/-! ## Display -/

/-- L2-D1. -/
theorem test_00E0 :
    after { start 0x00E0 with fb := lit [(5, 5), (63, 31)], rd := false } (fun t => t.fb == lit [] && t.rd) = true := by decide
/-- L2-D4: columns 64 and 65 are dropped. -/
theorem test_DXYN_clips :
    after { start 0xD015 with v := regs [(0, 62)], rd := false } (fun t =>
      t.fb == lit [(62, 0), (62, 1), (62, 2), (62, 3), (62, 4), (63, 0), (63, 4)] && t.readV vf == 0 && t.rd) = true := by
  decide
/-- L2-D10, its pixels (3, 4), (4, 4) and (10, 10): a lit covered pixel goes off and VF is 1. -/
theorem test_DXYN_collides :
    after { start 0xD015 with fb := lit [(3, 4), (10, 10)] } (fun t => !t.fb.pixel 3 4 && t.fb.pixel 2 4 &&
      t.fb.pixel 10 10 && !t.fb.pixel 4 4 && t.readV vf == 1) = true := by decide

/-! ## Timers and keys -/

/-- L2-T1. -/
theorem test_FX07 : after { start 0xF307 with dt := 10 } (fun t => t.readV 3 == 10 && t.dt == 9) = true := by decide
/-- L2-T3. -/
theorem test_FX15 : after { start 0xF115 with v := regs [(1, 60)] } (·.dt == 59) = true := by decide
/-- L2-T6, L2-T7. -/
theorem test_FX18 :
    after { start 0xF118 with v := regs [(1, 1)] } (fun t => t.st == 0 && t.beep) = true ∧
      after { start 0xF118 with v := regs [(1, 2)] } (fun t => t.st == 1 && !t.beep) = true := by decide
/-- L2-T12, L2-T11: the lowest new key; a held key is not new. -/
theorem test_FX0A :
    after { start 0xF20A with keysIn := 0x208 } (fun t => t.readV 2 == 3 && t.pc == 0x202 && t.wait == .running) = true ∧
      after { start 0xF20A with keysIn := 0x80, kprev := 0x80 } (fun t => t.wait == .awaitingKey 2 && t.pc == 0x200) =
        true := by decide
/-- L2-T14, L2-T15. -/
theorem test_FX0A_waiting :
    after { State.reset with wait := .awaitingKey 2, dt := 3 } (fun t => t.dt == 2 && t.wait == .awaitingKey 2 &&
      t.pc == 0x200) = true ∧
      after { State.reset with wait := .awaitingKey 2, dt := 3, keysIn := 0x20 } (fun t => t.readV 2 == 5 && t.dt == 2 &&
        t.wait == .running && t.pc == 0x202 && t.kprev == 0x20) = true := by decide
/-! ## Witnesses: states and operands that meet the hypotheses of the obligations, clause by clause -/

/-- The word at 0x0200 is what a fetch reads, and the engine runs. -/
theorem fetches_of {s : State} {i : Instr} (op : Word) (h : s.fault = none ∧ s.wait = .running)
    (hf : fetch s = .ok op) (hd : decode op = .ok i) : s.Fetches i := ⟨h.1, h.2, op, hf, hd⟩

theorem witness_EncodeOfDecodeIsTheWord : decode 0x8176 = .ok (.op8XY6 1 7) := by decide

theorem witness_DecodeFollowsTheOpcodeTable :
    decode 0x00E0 = .ok .op00E0 ∧ wellFormedWord 0xFF65 = true ∧ wellFormedWord 0x0000 = false := by decide

theorem witness_OpcodeTableRowsAreDisjoint :
    ∃ r, r ∈ opcodeTable ∧ r.accepts 0x812E = true := ⟨⟨"8XYE", 0x800E, 0xF00F⟩, by decide, by decide⟩

theorem witness_JumpSetsPcToTheAddress :
    ((start 0x1FFF).fault = none ∧ (start 0x1FFF).wait = .running) ∧
      (start 0x1200).Fetches (.op1NNN 0x200) ∧ (start 0x1200).pc.toNat = (0x200 : Addr).toNat :=
  ⟨by decide, fetches_of 0x1200 (by decide) (by decide) (by decide), by decide⟩

theorem witness_OffsetJumpAddsV0WithoutMasking :
    (0xFFF : Addr).toNat + ((start 0xBFFF).readV 0).toNat = 4095 ∧
      4096 ≤ (0xFFF : Addr).toNat + (({ start 0xBFFF with v := regs [(0, 1)] } : State).readV 0).toNat := by decide

theorem witness_CallPushesItsOwnAddress :
    (start 0x2300).sp.val < 16 ∧ ({ start 0x2300 with sp := 15 } : State).sp.val < 16 := by decide

theorem witness_ReturnPopsAndAddsTwo :
    (0 < ({ start 0x00EE with sp := 1 } : State).sp.val ∧ (0 : Fin 16).val + 1 = ({ start 0x00EE with sp := 1 } : State).sp.val) ∧
      (15 : Fin 16).val + 1 = ({ start 0x00EE with sp := 16 } : State).sp.val := by decide

theorem witness_FullAndEmptyStackRaiseTheirFault :
    ({ start 0x2300 with sp := 16 } : State).sp.val = 16 ∧ (start 0x00EE).sp.val = 0 := by decide

theorem witness_CallThenReturnComesBackAfterTheCall : ({ start 0x2300 with sp := 15 } : State).sp.val < 16 := by decide

theorem witness_RegisterSkipsMovePcAlone :
    ((0x5121 : Word) &&& 0xF000 = 0x5000 ∧ (0x5121 : Word) &&& 0x000F ≠ 0) ∧
      (0x912F : Word) &&& 0xF000 = 0x9000 ∧ (0x912F : Word) &&& 0x000F ≠ 0 := by decide

theorem witness_KeySkipsReadTheSampledKey : (({ start 0xE59E with v := regs [(5, 15)] } : State).readV 5).toNat ≤ 15 := by
  decide

theorem witness_KeySkipsFaultOnABadKeyNumber : 16 ≤ (({ start 0xE59E with v := regs [(5, 16)] } : State).readV 5).toNat := by
  decide

/-- X ≠ F and X = Y, the clauses of AddImmediateWrapsWithoutAFlag, AddReportsCarryInVF, SubtractionsReportNoBorrowInVF,
ShiftsReportTheDroppedBitInVF, LoadsWriteTheDestinationAlone and RegisterSkipsMovePcAlone. -/
theorem witness_register_numbers : (14 : Reg) ≠ vf ∧ (0 : Reg) ≠ vf ∧ (3 : Reg) = 3 := by decide

theorem witness_OnlyCXNNReadsTheRandomByte :
    (Instr.op6XNN 0 5).mnemonic ≠ "CXNN" ∧ ∃ t, exec (.op6XNN 0 5) State.reset = .next t := ⟨by decide, _, rfl⟩

theorem witness_OnlyKeyInstructionsReadTheKeypad :
    ((Instr.op6XNN 0 5).mnemonic ∉ ["EX9E", "EXA1", "FX0A"] ∧ ∃ t, exec (.op6XNN 0 5) State.reset = .next t) ∧
      (Instr.opEX9E 0).mnemonic ≠ "FX0A" ∧ ∃ t, exec (.opEX9E 0) State.reset = .next t :=
  ⟨⟨by decide, _, rfl⟩, by decide, exec_answers _ _⟩

theorem witness_AddToIndexIsExactOrFaults :
    (0xFFFF : Word).toNat + ((start 0xF21E).readV 2).toNat ≤ 0xFFFF ∧
      0xFFFF < (0xFFFF : Word).toNat + (({ start 0xF21E with v := regs [(2, 1)] } : State).readV 2).toNat := by decide

theorem witness_DecimalDigitsAreStoredAtIndex :
    (start 0xF333).mem.wf = true ∧ ({ start 0xF333 with i := 0xFFD } : State).dataAddr + 2 < 4096 := by decide

theorem witness_RegistersAreStoredAtIndex :
    (start 0xFF55).mem.wf = true ∧ ({ start 0xFF55 with i := 0xFF0 } : State).dataAddr + (15 : Reg).val < 4096 := by decide

theorem witness_RegistersAreLoadedFromIndex :
    ({ start 0xFF65 with i := 0xFF0 } : State).dataAddr + (15 : Reg).val < 4096 := by decide

theorem witness_BlockAccessOutsideMemoryFaults :
    4096 < ({ start 0xF333 with i := 0xFFE } : State).dataAddr + 3 ∧
      4096 < ({ start 0xFF55 with i := 0xFF1 } : State).dataAddr + ((15 : Reg).val + 1) ∧
      4096 < ({ start 0xF065 with i := 0x1000 } : State).dataAddr + ((0 : Reg).val + 1) ∧
      4096 < ({ start 0xD012 with i := 0xFFF } : State).dataAddr + (2 : Nibble).toNat ∧ 0 < (2 : Nibble).toNat := by decide

/-- `u` is the state after the store, with its PC at another place. -/
theorem witness_StoredRegistersLoadBack :
    ((start 0xFF55).mem.wf = true ∧ ({ start 0xFF55 with i := 0xFF0 } : State).dataAddr + (15 : Reg).val < 4096) ∧
      runs (.opFX55 15) { start 0xFF55 with i := 0xFF0 } (fun t => (t.jump 0x300).mem == t.mem && (t.jump 0x300).i == t.i) =
        true := by decide

theorem witness_StoredBytesAreFetched :
    (start 0xF155).mem.wf = true ∧ 1 ≤ (1 : Reg).val ∧ ({ start 0xF155 with i := 0xFFE } : State).dataAddr + (1 : Reg).val < 4096 := by
  decide

/-- N = 0 with I anywhere, and 15 rows that end at the last byte; one draw that collides and one that does not. -/
theorem witness_DrawFlipsTheCoveredPixels :
    ((0 : Nibble) = 0 ∨ ({ start 0xD010 with i := 0xFFFF } : State).dataAddr + (0 : Nibble).toNat ≤ 4096) ∧
      ({ start 0xD01F with i := 0xFF1 } : State).dataAddr + (15 : Nibble).toNat ≤ 4096 ∧
      runs (.opDXYN 0 1 5) { start 0xD015 with fb := lit [(0, 0)] } (fun t => !t.fb.pixel 0 0) = true ∧
      runs (.opDXYN 0 1 0) (start 0xD010) (fun t => t.fb == lit []) = true := by decide

theorem witness_DrawingTwiceRestoresTheScreen :
    (0 : Reg) ≠ vf ∧ (1 : Reg) ≠ vf ∧ (start 0xD015).dataAddr + (5 : Nibble).toNat ≤ 4096 := by decide

theorem witness_ReadDelayTimerSeesTheValueBeforeTheTick :
    ({ start 0xF307 with dt := 1 } : State).Fetches (.opFX07 3) ∧ ({ start 0xF307 with dt := 1 } : State).dt ≠ 0 ∧
      (start 0xF307).Fetches (.opFX07 3) ∧ (start 0xF307).dt = 0 :=
  ⟨fetches_of 0xF307 (by decide) (by decide) (by decide), by decide,
    fetches_of 0xF307 (by decide) (by decide) (by decide), by decide⟩

theorem witness_SetDelayTimerIsTickedInItsOwnStep : (start 0xF115).Fetches (.opFX15 1) :=
  fetches_of 0xF115 (by decide) (by decide) (by decide)

theorem witness_SetSoundTimerBeepsOnOneToZero :
    (start 0xF118).Fetches (.opFX18 1) ∧ (¬ ∃ x, ({ start 0x6005 with st := 1 } : State).Fetches (.opFX18 x)) ∧
      ∃ t, step { start 0x6005 with st := 1 } = .next t ∧ t.fault = none := by
  refine ⟨fetches_of 0xF118 (by decide) (by decide) (by decide), ?_, ?_⟩
  · rintro ⟨x, hx⟩
    have : ({ start 0x6005 with st := 1 } : State).Fetches (.op6XNN 0 5) :=
      fetches_of 0x6005 (by decide) (by decide) (by decide)
    cases hx.unique this
  · obtain ⟨t, h1, h2⟩ := exists_of_after (s := { start 0x6005 with st := 1 }) (p := fun t => t.fault == none) (by decide)
    exact ⟨t, h1, by simpa using h2⟩

/-- Keys 3 and 15 new with 3 the lowest; key 15 alone; a held key that is not new. -/
theorem witness_WaitForKeyCompletesOrWaits :
    ((0x8008 : Word).getLsbD 3 = true ∧ (0 : Word).getLsbD 3 = false ∧
      ∀ j, j < 3 → (0x8008 : Word).getLsbD j = true → (0 : Word).getLsbD j = true) ∧
      ((0x8000 : Word).getLsbD 15 = true ∧
        ∀ j, j < 15 → (0x8000 : Word).getLsbD j = true → (0 : Word).getLsbD j = true) ∧
      ∀ k, k < 16 → (0x0080 : Word).getLsbD k = true → (0x0080 : Word).getLsbD k = true := by decide

theorem witness_KeyWaitStepChecksForANewKey :
    ({ State.reset with wait := .awaitingKey 2, keysIn := 0x20 } : State).fault = none ∧
      ({ State.reset with wait := .awaitingKey 2, keysIn := 0x20 } : State).wait = .awaitingKey 2 ∧
      ((0x20 : Word).getLsbD 5 = true ∧ (0 : Word).getLsbD 5 = false ∧
        ∀ j, j < 5 → (0x20 : Word).getLsbD j = true → (0 : Word).getLsbD j = true) ∧
      ∀ k, k < 16 → (0 : Word).getLsbD k = true → (0 : Word).getLsbD k = true := by decide

/-- A step that completes, and one whose instruction raises a fault. -/
theorem witness_StepRunsTheDecodedInstruction :
    ((start 0x6005).Fetches (.op6XNN 0 5) ∧
      ∃ t, exec (.op6XNN 0 5) { start 0x6005 with beep := false } = .next t ∧ t.fault = none) ∧
      (start 0x00EE).Fetches .op00EE ∧
      ∃ t r, exec .op00EE { start 0x00EE with beep := false } = .next t ∧ t.fault = some r :=
  ⟨⟨fetches_of 0x6005 (by decide) (by decide) (by decide), _, rfl, rfl⟩,
    fetches_of 0x00EE (by decide) (by decide) (by decide), _, _, rfl, rfl⟩

theorem witness_IllegalWordFaultsWithTheWord :
    (start 0x5121).fault = none ∧ (start 0x5121).wait = .running ∧ fetch (start 0x5121) = .ok 0x5121 ∧
      wellFormedWord 0x5121 = false := by decide

theorem witness_FetchFaultsOutsideMemory :
    ({ State.reset with pc := 0xFFF } : State).pc.toNat = 4095 ∧ 4096 ≤ ({ State.reset with pc := 0x1000 } : State).pc.toNat ∧
      ({ State.reset with pc := 0xFFE } : State).pc.toNat < 4095 ∧ State.reset.fault = none ∧ State.reset.wait = .running := by
  decide

theorem witness_FaultedEngineHasNoStep :
    ({ State.reset with fault := some ⟨.stackUnderflow, 0x200, some 0x00EE, 0x00EE⟩ } : State).fault =
      some ⟨.stackUnderflow, 0x200, some 0x00EE, 0x00EE⟩ := by decide

theorem witness_UnfaultedEngineAlwaysSteps : (start 0x00EE).fault = none := by decide

theorem witness_FaultsArePrecise : ∃ t r, step (start 0x00EE) = .next t ∧ t.fault = some r := by
  obtain ⟨t, h1, h2⟩ := exists_of_after (s := start 0x00EE)
    (p := fun t => t.fault == recordOf .stackUnderflow 0x00EE 0x00EE) (by decide)
  exact ⟨t, _, h1, by simpa [recordOf] using h2⟩

theorem witness_InstructionsRaiseOnlyTheirOwnFault :
    State.reset.fault = none ∧ ∃ t r, exec .op00EE State.reset = .next t ∧ t.fault = some r :=
  ⟨by decide, _, _, rfl, rfl⟩

/-- A step that completes and fetched no FX15. -/
theorem witness_CompletedStepTicksAndRecordsKeys :
    (∃ t, step (start 0x6005) = .next t ∧ t.fault = none) ∧ ¬ ∃ x, (start 0x6005).Fetches (.opFX15 x) := by
  refine ⟨?_, ?_⟩
  · obtain ⟨t, h1, h2⟩ := exists_of_after (s := start 0x6005) (p := fun t => t.fault == none) (by decide)
    exact ⟨t, h1, by simpa using h2⟩
  · rintro ⟨x, hx⟩
    have : (start 0x6005).Fetches (.op6XNN 0 5) := fetches_of 0x6005 (by decide) (by decide) (by decide)
    cases hx.unique this

/-- A step that changes a pixel and RD. -/
theorem witness_OnlyDisplayInstructionsTouchTheScreen :
    ∃ t, step { start 0xD015 with rd := false } = .next t ∧ t.fb.pixel 0 0 ≠ (start 0xD015).fb.pixel 0 0 ∧ t.rd ≠ false := by
  obtain ⟨t, h1, h2⟩ := exists_of_after (s := { start 0xD015 with rd := false })
    (p := fun t => t.fb.pixel 0 0 != (start 0xD015).fb.pixel 0 0 && t.rd != false) (by decide)
  exact ⟨t, h1, by simpa using h2⟩

/-- A step that changes a byte of memory by FX33, and one by FX55. -/
theorem witness_OnlyStoresWriteMemory :
    (∃ t, step (start 0xF333) = .next t ∧ Memory.read t.mem 0 ≠ Memory.read (start 0xF333).mem 0) ∧
      ∃ t, step (start 0xF055) = .next t ∧ Memory.read t.mem 0 ≠ Memory.read (start 0xF055).mem 0 := by
  obtain ⟨t, h1, h2⟩ := exists_of_after (s := start 0xF333)
    (p := fun t => Memory.read t.mem 0 != Memory.read (start 0xF333).mem 0) (by decide)
  obtain ⟨u, h3, h4⟩ := exists_of_after (s := start 0xF055)
    (p := fun t => Memory.read t.mem 0 != Memory.read (start 0xF055).mem 0) (by decide)
  exact ⟨⟨t, h1, by simpa using h2⟩, u, h3, by simpa using h4⟩

/-- A step that changes the stack and SP, and one that changes I. -/
theorem witness_OnlyTheirWritersChangeStackAndIndex :
    (∃ t, step (start 0x2300) = .next t ∧ t.stack ≠ (start 0x2300).stack ∧ t.sp ≠ (start 0x2300).sp) ∧
      ∃ t, step (start 0xA2F0) = .next t ∧ t.i ≠ (start 0xA2F0).i := by
  obtain ⟨t, h1, h2⟩ := exists_of_after (s := start 0x2300)
    (p := fun t => t.stack != (start 0x2300).stack && t.sp != (start 0x2300).sp) (by decide)
  obtain ⟨u, h3, h4⟩ := exists_of_after (s := start 0xA2F0) (p := fun t => t.i != (start 0xA2F0).i) (by decide)
  exact ⟨⟨t, h1, by simpa using h2⟩, u, h3, by simpa using h4⟩

/-- A destination that changes, and VF changed as a flag. -/
theorem witness_RegistersChangeOnlyAsDestinationOrFlag :
    (∃ t, exec (.op6XNN 3 5) State.reset = .next t ∧ t.readV 3 ≠ State.reset.readV 3) ∧
      ∃ t, exec (.op8XY5 1 2) State.reset = .next t ∧ t.readV vf ≠ State.reset.readV vf :=
  ⟨⟨_, rfl, by decide⟩, _, rfl, by decide⟩

/-- A state in the middle of a run, with a stack entry, a stored byte and a running timer. -/
theorem witness_StepKeepsTheInvariant :
    Inv { start 0x00EE with sp := 1, stack := (Vector.replicate 16 0).set 0 0x300, dt := 3, loadOpen := false } ∧
      ∃ t, step { start 0x00EE with sp := 1, stack := (Vector.replicate 16 0).set 0 0x300, dt := 3, loadOpen := false } =
        .next t := by
  refine ⟨⟨by decide, by decide, by decide, ?_, ?_, ?_⟩, ?_⟩
  · intro x h; cases h
  · intro r h; cases h
  · intro h; cases h
  · obtain ⟨t, h, -⟩ := exists_of_after (p := fun _ => true)
      (s := { start 0x00EE with sp := 1, stack := (Vector.replicate 16 0).set 0 0x300, dt := 3, loadOpen := false })
      (by decide)
    exact ⟨t, h⟩

/-- A state that meets the invariant and admits a load; a faulted state; a run that ends in a fault: an image that returns
with an empty stack. -/
theorem witness_EveryHostRunKeepsTheInvariant :
    (Inv { start 0x6005 with keysIn := 1, rd := false } ∧
      ({ start 0x6005 with keysIn := 1, rd := false } : State).loadAdmitted = true) ∧
      ({ start 0x00EE with fault := recordOf .stackUnderflow 0x00EE 0x00EE } : State).fault =
        recordOf .stackUnderflow 0x00EE 0x00EE ∧
      (hostRun [.load [0x00, 0xEE], .step] (construct (Vector.replicate 80 0))).fault =
        recordOf .stackUnderflow 0x00EE 0x00EE := by
  refine ⟨⟨⟨by decide, by decide, by decide, ?_, ?_, ?_⟩, by decide⟩, by decide, by decide⟩
  · intro x h; cases h
  · intro r h; cases h
  · intro _; decide

/-- The boundary lengths: 3584 bytes are admitted, 3585 are not. -/
theorem witness_LoadWritesTheImageOnceBeforeTheFirstStep :
    (State.reset.mem.wf = true ∧ State.reset.loadOpen = true ∧ State.reset.fault = none) ∧
      (List.replicate 3584 (0x60 : Byte)).length ≤ 3584 ∧ 3584 < (List.replicate 3585 (0x60 : Byte)).length ∧
      ∃ t, step State.reset = .next t := by
  refine ⟨by decide, by rw [List.length_replicate], by rw [List.length_replicate]; omega, ?_⟩
  obtain ⟨t, h, -⟩ := exists_of_after (s := State.reset) (p := fun _ => true) (by decide)
  exact ⟨t, h⟩

theorem witness_ConstructionGivesTheResetState :
    (Vector.ofFn fun k : Fin 80 => fontDefault.getD k.val 0).toList = fontDefault := by decide

end Sys2Proof.Tests
end

/-! SUPPORT for the state family: a word that the decoder refuses is no row of R74. -/

namespace Sys2Proof

theorem fieldF_and (a b : Word) : fieldF (a &&& b) = fieldF a &&& fieldF b :=
  BitVec.extractLsb'_and

theorem fieldN_and (a b : Word) : fieldN (a &&& b) = fieldN a &&& fieldN b :=
  BitVec.extractLsb'_and

theorem fieldNN_and (a b : Word) : fieldNN (a &&& b) = fieldNN a &&& fieldNN b :=
  BitVec.extractLsb'_and

/-- The sub-opcodes N of family 8 (R74). -/
def subOpcodes8 : List Nibble := [0x0, 0x1, 0x2, 0x3, 0x4, 0x5, 0x6, 0x7, 0xE]

/-- The sub-opcodes NN of family E (R74). -/
def subOpcodesE : List Byte := [0x9E, 0xA1]

/-- The sub-opcodes NN of family F (R74). -/
def subOpcodesF : List Byte := [0x07, 0x0A, 0x15, 0x18, 0x1E, 0x29, 0x33, 0x55, 0x65]

/-- What a row of R74 fixes of a word: its family and, in the families that need one, the sub-opcode. -/
theorem fields_of_mem_opcodeTable : ∀ r ∈ opcodeTable, fieldF r.mask = 0xF ∧
    (fieldF r.pattern = 0x0 → r.mask = 0xFFFF ∧ (r.pattern = 0x00E0 ∨ r.pattern = 0x00EE)) ∧
    (fieldF r.pattern = 0x5 ∨ fieldF r.pattern = 0x9 → fieldN r.mask = 0xF ∧ fieldN r.pattern = 0x0) ∧
    (fieldF r.pattern = 0x8 → fieldN r.mask = 0xF ∧ fieldN r.pattern ∈ subOpcodes8) ∧
    (fieldF r.pattern = 0xE → fieldNN r.mask = 0xFF ∧ fieldNN r.pattern ∈ subOpcodesE) ∧
    (fieldF r.pattern = 0xF → fieldNN r.mask = 0xFF ∧ fieldNN r.pattern ∈ subOpcodesF) := by
  decide

theorem fieldN_notMem_of_decode8_error {op : Word} {e : DecodeError} (h : decode8 op = .error e) :
    fieldN op ∉ subOpcodes8 := by
  unfold decode8 at h
  split at h <;> simp_all [subOpcodes8]

theorem fieldNN_notMem_of_decodeE_error {op : Word} {e : DecodeError} (h : decodeE op = .error e) :
    fieldNN op ∉ subOpcodesE := by
  unfold decodeE at h
  split at h <;> simp_all [subOpcodesE]

theorem fieldNN_notMem_of_decodeF_error {op : Word} {e : DecodeError} (h : decodeF op = .error e) :
    fieldNN op ∉ subOpcodesF := by
  unfold decodeF at h
  split at h <;> simp_all [subOpcodesF]

/-- Where the decoder refuses a word (R75): in the families 0, 5, 8, 9, E and F, by the sub-opcode. -/
theorem decode_error_cases {op : Word} {e : DecodeError} (h : decode op = .error e) :
    (fieldF op = 0x0 ∧ op ≠ 0x00E0 ∧ op ≠ 0x00EE) ∨ ((fieldF op = 0x5 ∨ fieldF op = 0x9) ∧ fieldN op ≠ 0x0) ∨
      (fieldF op = 0x8 ∧ fieldN op ∉ subOpcodes8) ∨ (fieldF op = 0xE ∧ fieldNN op ∉ subOpcodesE) ∨
      (fieldF op = 0xF ∧ fieldNN op ∉ subOpcodesF) := by
  unfold decode at h
  split at h
  case h_1 hf =>
    split at h
    · cases h
    · split at h
      · cases h
      · next h1 h2 => exact .inl ⟨hf, h1, h2⟩
  case h_6 hf =>
    split at h
    · cases h
    · next hn => exact .inr (.inl ⟨.inl hf, hn⟩)
  case h_9 hf => exact .inr (.inr (.inl ⟨hf, fieldN_notMem_of_decode8_error h⟩))
  case h_10 hf =>
    split at h
    · cases h
    · next hn => exact .inr (.inl ⟨.inr hf, hn⟩)
  case h_15 hf => exact .inr (.inr (.inr (.inl ⟨hf, fieldNN_notMem_of_decodeE_error h⟩)))
  case h_16 hf => exact .inr (.inr (.inr (.inr ⟨hf, fieldNN_notMem_of_decodeF_error h⟩)))
  case h_17 =>
    exfalso
    clear h
    generalize fieldF op = f at *
    revert f
    decide
  all_goals cases h

/-- A word that the decoder refuses belongs to no row of R74 (R76). -/
theorem wellFormedWord_of_decode_error {op : Word} {e : DecodeError} (h : decode op = .error e) :
    wellFormedWord op = false := by
  refine List.any_eq_false.mpr fun r hr hacc => ?_
  have hop : op &&& r.mask = r.pattern := by simpa [OpcodeRow.accepts] using hacc
  obtain ⟨hF, h0, h59, h8, hE, h15⟩ := fields_of_mem_opcodeTable r hr
  have hfamily : fieldF r.pattern = fieldF op := by rw [← hop, fieldF_and, hF]; exact BitVec.and_allOnes
  have hN (hm : fieldN r.mask = 0xF) : fieldN r.pattern = fieldN op := by
    rw [← hop, fieldN_and, hm]; exact BitVec.and_allOnes
  have hNN (hm : fieldNN r.mask = 0xFF) : fieldNN r.pattern = fieldNN op := by
    rw [← hop, fieldNN_and, hm]; exact BitVec.and_allOnes
  rw [hfamily] at h0 h59 h8 hE h15
  rcases decode_error_cases h with ⟨hf, h1, h2⟩ | ⟨hf, hn⟩ | ⟨hf, hn⟩ | ⟨hf, hn⟩ | ⟨hf, hn⟩
  · obtain ⟨hm, hp⟩ := h0 hf
    rw [← hop, hm, show op &&& 0xFFFF = op from BitVec.and_allOnes] at hp
    exact hp.elim h1 h2
  · obtain ⟨hm, hp⟩ := h59 hf
    exact hn (hN hm ▸ hp)
  · obtain ⟨hm, hp⟩ := h8 hf
    exact hn (hN hm ▸ hp)
  · obtain ⟨hm, hp⟩ := hE hf
    exact hn (hNN hm ▸ hp)
  · obtain ⟨hm, hp⟩ := h15 hf
    exact hn (hNN hm ▸ hp)

end Sys2Proof

/-! SUPPORT for the state family: what a completed execution writes, said once for all instructions. -/

namespace Sys2Proof.Machine

/-- What an instruction that completes leaves of the state before it: the components it writes and who may write them, with
the bounds that the invariant needs of the values. The values themselves are for each instruction's own lemma. -/
inductive Effect (s : State) : Instr → State → Prop where
  | writeReg {i : Instr} (x : Reg) (b : Byte) (hx : i.namesDestination x) : Effect s i (s.writeV x b).advance
  | writeRegFlagged {i : Instr} (x : Reg) (f b : Byte) (hx : i.namesDestination x) (hi : i.writesFlag) :
      Effect s i (s.writeFlagged x f b).advance
  | loadRegs (x : Reg) (bs : List Byte) (hbs : bs.length = x.val + 1) : Effect s (.opFX65 x) (s.loadRegs bs).advance
  | skip {i : Instr} (c : Bool) : Effect s i (s.skipIf c)
  | jump {i : Instr} (p : Word) (hp : p.toNat ≤ 0x10FE) : Effect s i (s.jump p)
  | call (nnn : Addr) (h : s.sp.val < 16) :
      Effect s (.op2NNN nnn)
        { s with
          stack := s.stack.set s.sp.val s.pc
          sp := ⟨s.sp.val + 1, Nat.succ_lt_succ h⟩
          pc := zextAddr nnn }
  | ret (k : Fin 16) (hk : k.val + 1 = s.sp.val) :
      Effect s .op00EE { s with sp := k.castSucc, pc := s.stack[k.val] + 2 }
  | clear : Effect s .op00E0 { s.advance with fb := Vector.replicate 32 0, rd := true }
  | draw (x y : Reg) (n : Nibble) (f : Byte) (fb : Framebuffer) :
      Effect s (.opDXYN x y n) { (s.writeV vf f).advance with fb := fb, rd := true }
  | setIndex {i : Instr} (w : Word) (hi : (∃ nnn, i = .opANNN nnn) ∨ (∃ x, i = .opFX1E x) ∨ ∃ x, i = .opFX29 x) :
      Effect s i { s.advance with i := w }
  | store {i : Instr} (bs : List Byte) (hi : (∃ x, i = .opFX33 x) ∨ ∃ x, i = .opFX55 x)
      (hbs : s.dataAddr + bs.length ≤ 4096) :
      Effect s i { s.advance with mem := Memory.storeAll s.mem s.dataAddr bs }
  | setTimers {i : Instr} (dt st : Byte) : Effect s i { s.advance with dt := dt, st := st }
  | await (x : Reg) : Effect s (.opFX0A x) { s with wait := .awaitingKey x }

theorem zextAddr_toNat (nnn : Addr) : (zextAddr nnn).toNat = nnn.toNat :=
  BitVec.toNat_setWidth_of_le (by decide)

theorem offsetTarget_toNat (nnn : Addr) (b : Byte) : (offsetTarget nnn b).toNat = nnn.toNat + b.toNat := by
  have hbyte : (zextByte b).toNat = b.toNat := BitVec.toNat_setWidth_of_le (by decide)
  have := nnn.isLt
  have := b.isLt
  rw [offsetTarget, BitVec.toNat_add, zextAddr_toNat, hbyte]
  omega

/-- The instruction after a fetched address, and the one after that, lie below the bound of R25. -/
theorem toNat_add_le_pcBound {w d : Word} (hw : w.toNat ≤ 4094) (hd : d.toNat ≤ 4) : (w + d).toNat ≤ 0x10FE := by
  rw [BitVec.toNat_add]
  omega

/-- An instruction raises a fault and leaves everything else alone, or it completes with its effect. -/
theorem exec_faulted_or_effect {i : Instr} {s t : State} (h : exec i s = .next t) :
    (∃ r, t = s.faulted r) ∨ Effect s i t := by
  cases i with
  | op00E0 => cases h; exact .inr .clear
  | op00EE =>
    rcases exec00EE_cases h with ⟨-, rfl⟩ | ⟨k, hk, rfl⟩
    · exact .inl ⟨_, rfl⟩
    · exact .inr (.ret k hk)
  | op2NNN nnn =>
    rcases exec2NNN_cases h with ⟨-, rfl⟩ | ⟨hk, rfl⟩
    · exact .inl ⟨_, rfl⟩
    · exact .inr (.call nnn hk)
  | op1NNN nnn =>
    cases h
    exact .inr (.jump _ (by have := nnn.isLt; rw [zextAddr_toNat]; omega))
  | opBNNN nnn =>
    cases h
    exact .inr (.jump _ (by have := nnn.isLt; have := (s.readV 0).isLt; rw [offsetTarget_toNat]; omega))
  | op3XNN x nn | op4XNN x nn | op5XY0 x y | op9XY0 x y => cases h; exact .inr (.skip _)
  | opEX9E x =>
    rcases execEX9E_cases h with ⟨-, rfl⟩ | ⟨-, rfl⟩
    · exact .inl ⟨_, rfl⟩
    · exact .inr (.skip _)
  | opEXA1 x =>
    rcases execEXA1_cases h with ⟨-, rfl⟩ | ⟨-, rfl⟩
    · exact .inl ⟨_, rfl⟩
    · exact .inr (.skip _)
  | op6XNN x _ | op7XNN x _ | op8XY0 x _ | op8XY1 x _ | op8XY2 x _ | op8XY3 x _ | opCXNN x _ | opFX07 x =>
    cases h; exact .inr (.writeReg x _ rfl)
  | op8XY4 x _ | op8XY5 x _ | op8XY6 x _ | op8XY7 x _ | op8XYE x _ =>
    cases h; exact .inr (.writeRegFlagged x _ _ rfl trivial)
  | opFX0A x =>
    rcases execFX0A_cases h with ⟨k, -, rfl⟩ | ⟨-, rfl⟩
    · exact .inr (.writeReg x _ rfl)
    · exact .inr (.await x)
  | opFX15 x => cases h; exact .inr (.setTimers (s.readV x) s.st)
  | opFX18 x => cases h; exact .inr (.setTimers s.dt (s.readV x))
  | opANNN nnn => cases h; exact .inr (.setIndex _ (.inl ⟨nnn, rfl⟩))
  | opFX1E x =>
    rcases execFX1E_cases h with ⟨-, rfl⟩ | ⟨-, rfl⟩
    · exact .inl ⟨_, rfl⟩
    · exact .inr (.setIndex _ (.inr (.inl ⟨x, rfl⟩)))
  | opFX29 x => cases h; exact .inr (.setIndex _ (.inr (.inr ⟨x, rfl⟩)))
  | opFX33 x =>
    rcases execFX33_cases h with ⟨-, rfl⟩ | ⟨hb, rfl⟩
    · exact .inl ⟨_, rfl⟩
    · exact .inr (.store _ (.inl ⟨x, rfl⟩) (by rwa [length_bcdDigits]))
  | opFX55 x =>
    rcases execFX55_cases h with ⟨-, rfl⟩ | ⟨hb, rfl⟩
    · exact .inl ⟨_, rfl⟩
    · exact .inr (.store _ (.inr ⟨x, rfl⟩) (by rwa [State.length_regBlock]))
  | opFX65 x =>
    rcases execFX65_cases h with ⟨-, rfl⟩ | ⟨-, rfl⟩
    · exact .inl ⟨_, rfl⟩
    · exact .inr (.loadRegs x _ (Memory.length_loadAll _ _ _))
  | opDXYN x y n =>
    rcases execDXYN_cases h with ⟨-, -, rfl⟩ | ⟨-, rfl⟩
    · exact .inl ⟨_, rfl⟩
    · exact .inr (.draw x y n _ _)

section
variable {s t : State} {i : Instr} (h : Effect s i t)
include h

/-- No effect raises a fault. -/
theorem Effect.fault_eq : t.fault = s.fault := by
  cases h <;> rfl

/-- Only a call writes the stack. -/
theorem Effect.stack_eq : t.stack = s.stack ∨ ∃ nnn, i = .op2NNN nnn := by
  cases h with
  | call nnn _ => exact .inr ⟨nnn, rfl⟩
  | _ => exact .inl rfl

/-- Only a call and a return write SP. -/
theorem Effect.sp_eq : t.sp = s.sp ∨ i = .op00EE ∨ ∃ nnn, i = .op2NNN nnn := by
  cases h with
  | ret _ _ => exact .inr (.inl rfl)
  | call nnn _ => exact .inr (.inr ⟨nnn, rfl⟩)
  | _ => exact .inl rfl

/-- Only the index instructions write I. -/
theorem Effect.i_eq :
    t.i = s.i ∨ (∃ nnn, i = .opANNN nnn) ∨ (∃ x, i = .opFX1E x) ∨ ∃ x, i = .opFX29 x := by
  cases h with
  | setIndex _ hi => exact .inr hi
  | _ => exact .inl rfl

/-- Only the display instructions write the screen and RD, and they set RD. -/
theorem Effect.screen_eq :
    (t.fb = s.fb ∧ t.rd = s.rd) ∨ (t.rd = true ∧ (i = .op00E0 ∨ ∃ x y n, i = .opDXYN x y n)) := by
  cases h with
  | clear => exact .inr ⟨rfl, .inl rfl⟩
  | draw x y n _ _ => exact .inr ⟨rfl, .inr ⟨x, y, n, rfl⟩⟩
  | _ => exact .inl ⟨rfl, rfl⟩

/-- Only FX0A, when it finds no new key, writes WAIT; it leaves PC and memory. -/
theorem Effect.wait_eq :
    t.wait = s.wait ∨ ∃ x, i = .opFX0A x ∧ t.wait = .awaitingKey x ∧ t.pc = s.pc ∧ t.mem = s.mem := by
  cases h with
  | await x => exact .inr ⟨x, rfl, rfl, rfl, rfl⟩
  | _ => exact .inl rfl

/-- A register is written as a named destination, or VF as a flag. -/
theorem Effect.readV_eq (r : Reg) :
    t.readV r = s.readV r ∨ i.namesDestination r ∨ (r = vf ∧ i.writesFlag) := by
  cases h with
  | writeReg x b hx =>
    by_cases hr : r = x
    · exact .inr (.inl (hr ▸ hx))
    · exact .inl (State.readV_writeV_ne s hr b)
  | writeRegFlagged x f b hx hi =>
    by_cases hr : r = x
    · exact .inr (.inl (hr ▸ hx))
    · by_cases hf : r = vf
      · exact .inr (.inr ⟨hf, hi⟩)
      · exact .inl (by simp [State.readV_writeFlagged, hr, hf])
  | loadRegs x bs hbs =>
    by_cases hr : r ≤ x
    · exact .inr (.inl hr)
    · refine .inl ?_
      have hout : bs.length ≤ r.val := by rw [hbs]; exact Fin.lt_def.mp (not_le.mp hr)
      rw [State.readV_advance, State.readV_loadRegs, List.getD_eq_default _ _ hout]
  | draw x y n f fb =>
    by_cases hf : r = vf
    · exact .inr (.inr ⟨hf, trivial⟩)
    · exact .inl (State.readV_writeV_ne s hf f)
  | _ => exact .inl rfl

/-- Memory stays canonical: a block that is stored lies inside memory. -/
theorem Effect.mem_wf (hm : s.mem.wf = true) : t.mem.wf = true := by
  cases h with
  | store bs _ hbs => exact Memory.wf_storeAll hm hbs
  | _ => exact hm

/-- From a PC that was fetched and a bounded stack no effect leads above 0x10FE (R25). -/
theorem Effect.pc_le (hpc : s.pc.toNat + 1 < 4096) (hstack : ∀ k : Fin 16, s.stack[k.val].toNat ≤ 4094) :
    t.pc.toNat ≤ 0x10FE := by
  cases h with
  | jump p hp => exact hp
  | skip c => exact toNat_add_le_pcBound (by omega) (by cases c <;> decide)
  | call nnn _ =>
    have := nnn.isLt
    exact le_trans (zextAddr_toNat nnn).le (by omega)
  | ret k _ => exact toNat_add_le_pcBound (hstack k) (by decide)
  | await _ => show s.pc.toNat ≤ 0x10FE; omega
  | _ => exact toNat_add_le_pcBound (w := s.pc) (d := 2) (by omega) (by decide)

/-- The stack holds addresses that were fetched (R120). -/
theorem Effect.stack_le (hpc : s.pc.toNat + 1 < 4096) (hstack : ∀ k : Fin 16, s.stack[k.val].toNat ≤ 4094) :
    ∀ k : Fin 16, t.stack[k.val].toNat ≤ 4094 := by
  cases h with
  | call nnn hsp =>
    intro k
    simp only [Vector.getElem_set]
    split
    · omega
    · exact hstack k
  | _ => exact hstack

end

end Sys2Proof.Machine

/-! SUPPORT for the state family: the outcomes of a step, and the invariant over them. -/

namespace Sys2Proof.Machine

theorem State.Fetches.pc_lt {s : State} {i : Instr} (h : s.Fetches i) : s.pc.toNat + 1 < 4096 := by
  obtain ⟨-, -, op, hop, -⟩ := h
  exact (fetch_eq_ok.mp hop).1

/-- The outcomes of a step: a precise fault outside a key-wait, a check of a key-wait, or an instruction that completes. -/
theorem step_outcomes {s t : State} (h : step s = .next t) :
    (∃ r : FaultRecord, s.wait = .running ∧ r.asSpecified ∧ r.pc = s.pc ∧ t = s.faulted r) ∨
      (∃ x, s.fault = none ∧ s.wait = .awaitingKey x ∧ t = (s.startStep.keyWaitCheck x).endStep) ∨
      ∃ i u, s.Fetches i ∧ Effect s.startStep i u ∧ t = u.endStep := by
  obtain ⟨hf, ⟨x, hw, rfl⟩ | ⟨hw, a, ha, rfl⟩ | ⟨hw, op, -, hd, rfl⟩ | ⟨i, u, hi, hu, rfl⟩⟩ := step_cases h
  · exact .inr (.inl ⟨x, hf, hw, rfl⟩)
  · have hinfo : 4096 ≤ a := (fetch_eq_error.mp ha).2 ▸ Nat.le_max_right _ _
    exact .inl ⟨⟨.memoryOutOfBounds, s.pc, none, a⟩, hw, ⟨hinfo, .inl rfl⟩, rfl, rfl⟩
  · have hill := wellFormedWord_of_decode_error hd
    exact .inl ⟨⟨.unknownOpcode, s.pc, some op, op.toNat⟩, hw, ⟨op, rfl, hill, rfl⟩, rfl, rfl⟩
  · rcases exec_cases hu with ⟨kind, info, -, hr, rfl⟩ | ⟨hkeep, -⟩
    · obtain ⟨-, hw, -⟩ := hi
      exact .inl ⟨_, hw, hr, rfl, State.settle_of_some rfl⟩
    · have hnone : u.fault = none := hkeep.trans hf
      rcases exec_faulted_or_effect hu with ⟨r, rfl⟩ | he
      · cases hnone
      · exact .inr (.inr ⟨i, u, hi, he, State.settle_of_none hnone⟩)

/-- What only instructions write, a step without a completing instruction leaves alone. -/
theorem step_effect_or_unchanged {s t : State} (h : step s = .next t) :
    (∃ i u, s.Fetches i ∧ Effect s.startStep i u ∧ t = u.endStep) ∨
      (t.stack = s.stack ∧ t.sp = s.sp ∧ t.i = s.i ∧ t.fb = s.fb ∧ t.rd = s.rd) := by
  rcases step_outcomes h with ⟨r, -, -, -, rfl⟩ | ⟨x, -, -, rfl⟩ | hrun
  · exact .inr ⟨rfl, rfl, rfl, rfl, rfl⟩
  · rcases s.startStep.keyWaitCheck_cases x with ⟨k, -, hk⟩ | ⟨-, hk⟩ <;>
      exact .inr (by rw [hk]; exact ⟨rfl, rfl, rfl, rfl, rfl⟩)
  · exact .inl hrun

/-- After a step no load is admitted (R42, D19). -/
theorem step_loadAdmitted {s t : State} (h : step s = .next t) : t.loadAdmitted = false := by
  rcases step_outcomes h with ⟨r, -, -, -, rfl⟩ | ⟨x, -, -, rfl⟩ | ⟨i, u, -, -, rfl⟩ <;> simp [State.loadAdmitted]

/-! The invariant -/

/-- The invariant reads seven fields alone. -/
theorem Inv.congr {s t : State} (h : Inv s) (hmem : t.mem = s.mem) (hpc : t.pc = s.pc) (hstack : t.stack = s.stack)
    (hwait : t.wait = s.wait) (hbeep : t.beep = s.beep) (hfault : t.fault = s.fault)
    (hload : t.loadOpen = s.loadOpen) : Inv t where
  memory := hmem ▸ h.memory
  pcBound := hpc ▸ h.pcBound
  stackBound := hstack ▸ h.stackBound
  waiting x hx := by rw [fetch_congr hpc hmem]; exact h.waiting x (hwait ▸ hx)
  faulted r hr := by rw [hpc, hbeep, hwait]; exact h.faulted r (hfault ▸ hr)
  unstepped ho := by rw [hwait, hpc]; exact h.unstepped (hload ▸ ho)

/-- A precise fault outside a key-wait keeps the invariant. -/
theorem Inv.of_faulted {s : State} {r : FaultRecord} (h : Inv s) (hw : s.wait = .running) (hr : r.asSpecified)
    (hpc : r.pc = s.pc) : Inv (s.faulted r) where
  memory := h.memory
  pcBound := h.pcBound
  stackBound := h.stackBound
  waiting := h.waiting
  faulted r' hr' := by cases hr'; exact ⟨hr, hpc, rfl, hw⟩
  unstepped := h.unstepped

/-- The end of a step that did not fault needs the first four clauses alone. -/
theorem Inv.of_endStep {u : State} (hf : u.fault = none) (hmem : u.mem.wf = true) (hpc : u.pc.toNat ≤ 0x10FE)
    (hstack : ∀ k : Fin 16, u.stack[k.val].toNat ≤ 4094)
    (hwait : ∀ x, u.wait = .awaitingKey x → ∃ op, fetch u = .ok op ∧ decode op = .ok (.opFX0A x)) :
    Inv u.endStep where
  memory := hmem
  pcBound := hpc
  stackBound := hstack
  waiting := hwait
  faulted r hr := by rw [State.endStep_fault, hf] at hr; cases hr
  unstepped ho := by cases ho

/-- The check of a key-wait keeps the invariant: it moves PC past its FX0A or leaves it there (R107). -/
theorem Inv.of_keyWaitCheck {s : State} {x : Reg} (h : Inv s) (hf : s.fault = none) (hw : s.wait = .awaitingKey x) :
    Inv (s.startStep.keyWaitCheck x).endStep := by
  obtain ⟨op, hop, hd⟩ := h.waiting x hw
  rcases s.startStep.keyWaitCheck_cases x with ⟨k, -, hk⟩ | ⟨-, hk⟩ <;> rw [hk]
  · obtain ⟨hpc, -⟩ := fetch_eq_ok.mp hop
    refine .of_endStep hf h.memory ?_ h.stackBound (fun y hy => nomatch hy)
    exact toNat_add_le_pcBound (w := s.pc) (d := 2) (by omega) (by decide)
  · exact .of_endStep hf h.memory h.pcBound h.stackBound h.waiting

/-- An instruction that completes keeps the invariant. -/
theorem Inv.of_effect {s u : State} {i : Instr} (h : Inv s) (hi : s.Fetches i) (hu : Effect s.startStep i u) :
    Inv u.endStep := by
  have hpc := hi.pc_lt
  obtain ⟨hf, hw, op, hop, hd⟩ := hi
  refine .of_endStep (hu.fault_eq.trans hf) (hu.mem_wf h.memory) (hu.pc_le hpc h.stackBound)
    (hu.stack_le hpc h.stackBound) fun x hx => ?_
  rcases hu.wait_eq with hsame | ⟨y, rfl, hy, hpc', hmem'⟩
  · rw [hsame, State.startStep_wait, hw] at hx
    cases hx
  · rw [hy] at hx
    cases hx
    exact ⟨op, (fetch_congr (s := s) hpc' hmem').trans hop, hd⟩

/-- Settles O54: over the outcomes of a step, one lemma for each. -/
theorem stepKeepsTheInvariant : Obligations.StepKeepsTheInvariant := by
  intro s t hinv h
  rcases step_outcomes h with ⟨r, hw, hr, hpc, rfl⟩ | ⟨x, hf, hw, rfl⟩ | ⟨i, u, hi, hu, rfl⟩
  · exact hinv.of_faulted hw hr hpc
  · exact hinv.of_keyWaitCheck hf hw
  · exact hinv.of_effect hi hu

/-! The acts of the host -/

/-! A load: not admitted, refused for its length, or the image written and no second load admitted (R42, R201). -/

theorem loadApplication_of_not_admitted {s : State} (h : s.loadAdmitted = false) (bytes : List Byte) :
    loadApplication bytes s = .notAdmitted := by
  simp [loadApplication, h]

theorem loadApplication_of_too_long {s : State} {bytes : List Byte} (h : s.loadAdmitted = true)
    (hl : 3584 < bytes.length) : loadApplication bytes s = .romTooLarge := by
  simp [loadApplication, h, Config.maxRom, hl]

theorem loadApplication_of_fits {s : State} {bytes : List Byte} (h : s.loadAdmitted = true)
    (hl : bytes.length ≤ 3584) :
    loadApplication bytes s = .loaded { s with mem := Memory.storeAll s.mem 512 bytes, loadOpen := false } := by
  simp [loadApplication, h, Config.maxRom, Nat.not_lt.mpr hl]

/-- The act of loading leaves the state alone, or it was admitted and the image fits. -/
theorem hostDo_load_cases (bytes : List Byte) (s : State) :
    hostDo (.load bytes) s = s ∨
      (s.loadAdmitted = true ∧ bytes.length ≤ 3584 ∧
        hostDo (.load bytes) s = { s with mem := Memory.storeAll s.mem 512 bytes, loadOpen := false }) := by
  cases ha : s.loadAdmitted with
  | false => exact .inl (by simp only [hostDo, loadApplication_of_not_admitted ha])
  | true =>
    by_cases hl : bytes.length ≤ 3584
    · exact .inr ⟨rfl, hl, by simp only [hostDo, loadApplication_of_fits ha hl]⟩
    · exact .inl (by simp only [hostDo, loadApplication_of_too_long ha (Nat.lt_of_not_le hl)])

theorem loadAdmitted_iff (s : State) : s.loadAdmitted = true ↔ s.loadOpen = true ∧ s.fault = none := by
  simp [State.loadAdmitted]

/-- A load that is admitted keeps the invariant: PC is still at the program's first byte and no key-wait is on. -/
theorem Inv.of_load {s : State} {bytes : List Byte} (h : Inv s) (ha : s.loadAdmitted = true)
    (hl : bytes.length ≤ 3584) : Inv { s with mem := Memory.storeAll s.mem 512 bytes, loadOpen := false } where
  memory := Memory.wf_storeAll h.memory (by simp only [Config.memSize]; omega)
  pcBound := h.pcBound
  stackBound := h.stackBound
  waiting x hx := by
    obtain ⟨hopen, -⟩ := (loadAdmitted_iff s).mp ha
    obtain ⟨hrunning, -⟩ := h.unstepped hopen
    cases hrunning.symm.trans hx
  faulted := h.faulted
  unstepped ho := by cases ho

theorem inv_hostDo (e : HostEvent) {s : State} (h : Inv s) : Inv (hostDo e s) := by
  cases e with
  | load bytes =>
    rcases hostDo_load_cases bytes s with hsame | ⟨ha, hl, himage⟩
    · rwa [hsame]
    · rw [himage]
      exact h.of_load ha hl
  | setKeypad _ | setRandom _ | clearRedraw => exact h.congr rfl rfl rfl rfl rfl rfl rfl
  | step =>
    simp only [hostDo]
    split
    · next t ht => exact stepKeepsTheInvariant s t h ht
    · exact h
    · exact h

/-- No act of the host changes a fault record (R39, R106). -/
theorem hostDo_fault (e : HostEvent) {s : State} {r : FaultRecord} (h : s.fault = some r) :
    (hostDo e s).fault = some r := by
  cases e with
  | load bytes =>
    rcases hostDo_load_cases bytes s with hsame | ⟨-, -, himage⟩
    · rwa [hsame]
    · rwa [himage]
  | setKeypad _ | setRandom _ | clearRedraw => exact h
  | step => simp only [hostDo, step, h]

/-- What every act of the host keeps, every run of the host keeps. -/
theorem hostRun_induction {p : State → Prop} (hp : ∀ e s, p s → p (hostDo e s)) (es : List HostEvent) {s : State}
    (hs : p s) : p (hostRun es s) := by
  induction es generalizing s with
  | nil => exact hs
  | cons e es ih => exact ih (hp e s hs)

/-- Construction meets the invariant with every font (R220). -/
theorem inv_construct (font : Vector Byte 80) : Inv (construct font) where
  memory := Memory.wf_storeAll (m := []) rfl (by simp [Config.memSize])
  pcBound := show (0x200 : Word).toNat ≤ 0x10FE by decide
  stackBound k := by simp [construct, State.reset]
  waiting x hx := by cases hx
  faulted r hr := by cases hr
  unstepped _ := ⟨rfl, rfl⟩

/-- Settles O56: every act keeps the invariant and the record, so every run does. -/
theorem everyHostRunKeepsTheInvariant : Obligations.EveryHostRunKeepsTheInvariant := by
  refine ⟨fun e s => inv_hostDo e, fun e s r => hostDo_fault e, fun font es => ⟨?_, fun r hr es' => ?_⟩⟩
  · exact hostRun_induction (fun e _ => inv_hostDo e) es (inv_construct font)
  · exact hostRun_induction (p := (·.fault = some r)) (fun e _ => hostDo_fault e) es' hr

end Sys2Proof.Machine

/-! What a step and an instruction may write, and what the host's acts write. -/

namespace Sys2Proof.Machine

/-- Settles O50: a step that changes the screen or RD ran one of the two display instructions, and both set RD. -/
theorem onlyDisplayInstructionsTouchTheScreen : Obligations.OnlyDisplayInstructionsTouchTheScreen := by
  intro s t h
  rcases step_effect_or_unchanged h with ⟨i, u, hi, hu, rfl⟩ | ⟨-, -, -, hfb, hrd⟩
  · rcases hu.screen_eq with ⟨hfb, hrd⟩ | ⟨hrd, rfl | ⟨x, y, n, rfl⟩⟩
    · exact ⟨fun h => hrd.trans h, fun h => absurd h (by simp [hfb, hrd])⟩
    · exact ⟨fun _ => hrd, fun _ => .inl hi⟩
    · exact ⟨fun _ => hrd, fun _ => .inr ⟨x, y, n, hi⟩⟩
  · exact ⟨fun h => hrd.trans h, fun h => absurd h (by simp [hfb, hrd])⟩

/-- Settles O52: each of the three fields has its own writers among the effects. -/
theorem onlyTheirWritersChangeStackAndIndex : Obligations.OnlyTheirWritersChangeStackAndIndex := by
  intro s t h
  rcases step_effect_or_unchanged h with ⟨i, u, hi, hu, rfl⟩ | ⟨hstack, hsp, hindex, -, -⟩
  · refine ⟨fun hne => ?_, fun hne => ?_, fun hne => ?_⟩
    · obtain ⟨nnn, rfl⟩ := hu.stack_eq.resolve_left hne
      exact ⟨nnn, hi⟩
    · rcases hu.sp_eq.resolve_left hne with rfl | ⟨nnn, rfl⟩
      · exact .inl hi
      · exact .inr ⟨nnn, hi⟩
    · rcases hu.i_eq.resolve_left hne with ⟨nnn, rfl⟩ | ⟨x, rfl⟩ | ⟨x, rfl⟩
      · exact .inl ⟨nnn, hi⟩
      · exact .inr (.inl ⟨x, hi⟩)
      · exact .inr (.inr ⟨x, hi⟩)
  · exact ⟨fun hne => absurd hstack hne, fun hne => absurd hsp hne, fun hne => absurd hindex hne⟩

/-- Settles O53: a fault writes no register, and an effect writes its destinations and its flag. -/
theorem registersChangeOnlyAsDestinationOrFlag : Obligations.RegistersChangeOnlyAsDestinationOrFlag := by
  intro i s t r h hne
  rcases exec_faulted_or_effect h with ⟨rec, rfl⟩ | hu
  · exact absurd (State.readV_faulted s rec r) hne
  · exact (hu.readV_eq r).resolve_left hne

/-- The frame of an image written by a load: its own bytes and the model's own field. -/
theorem sameExcept_loaded (s : State) (bytes : List Byte) :
    SameExcept (fun c => c = .loadOpen ∨ ∃ k, k < bytes.length ∧ c = .memByte (512 + k)) s
      { s with mem := Memory.storeAll s.mem 512 bytes, loadOpen := false } := by
  intro c hc
  cases c with
  | loadOpen => exact absurd (.inl rfl) hc
  | memByte a =>
    refine Memory.read_storeAll_outside s.mem ?_
    by_contra hin
    exact hc (.inr ⟨a - 512, by omega, congrArg _ (by omega)⟩)
  | _ => rfl

/-- Settles O57: the image is a block write at 512, and a load and a step both close loading. -/
theorem loadWritesTheImageOnceBeforeTheFirstStep : Obligations.LoadWritesTheImageOnceBeforeTheFirstStep := by
  intro bytes s hwf hopen hfault
  have hadm : s.loadAdmitted = true := (loadAdmitted_iff s).mpr ⟨hopen, hfault⟩
  refine ⟨fun hl => ?_, fun hl => ?_, fun t ht => loadApplication_of_not_admitted (step_loadAdmitted ht) bytes⟩
  · refine ⟨_, loadApplication_of_fits hadm hl, fun k hk => ?_, sameExcept_loaded s bytes, fun again => ?_⟩
    · exact Memory.read_storeAll_inside hwf (by simp only [Config.memSize]; omega) hk
    · exact loadApplication_of_not_admitted rfl again
  · have hb := loadApplication_of_too_long hadm hl
    exact ⟨hb, by simp only [hostDo, hb]⟩

/-- Settles O58: each input writes one field of the state. -/
theorem hostInputsChangeTheirOwnFieldAlone : Obligations.HostInputsChangeTheirOwnFieldAlone := by
  intro keys b s
  refine ⟨⟨rfl, fun c hc => ?_⟩, ⟨rfl, fun c hc => ?_⟩, ⟨rfl, fun c hc => ?_⟩⟩
  · cases c with
    | keysIn => exact absurd (by simp) hc
    | _ => rfl
  · cases c with
    | rndIn => exact absurd (by simp) hc
    | _ => rfl
  · cases c with
    | rd => exact absurd (by simp) hc
    | _ => rfl

end Sys2Proof.Machine

/-! O24: execution and the keypad samples. -/

namespace Sys2Proof.Machine

/-- The state with other keypad samples: this step's `KEYS` and the previous step's `KPREV` (R34, R35). -/
def State.withKeys (keys prev : Word) (s : State) : State := { s with keysIn := keys, kprev := prev }

section
variable (keys prev : Word) (s : State)

@[simp] theorem State.withKeys_i : (s.withKeys keys prev).i = s.i := rfl
@[simp] theorem State.withKeys_mem : (s.withKeys keys prev).mem = s.mem := rfl
@[simp] theorem State.withKeys_dataAddr : (s.withKeys keys prev).dataAddr = s.dataAddr := rfl
@[simp] theorem State.readV_withKeys (r : Reg) : (s.withKeys keys prev).readV r = s.readV r := rfl
@[simp] theorem State.regBlock_withKeys (x : Reg) : (s.withKeys keys prev).regBlock x = s.regBlock x := rfl

theorem State.push_withKeys : (s.withKeys keys prev).push = s.push.map (State.withKeys keys prev) := by
  by_cases h : s.sp.val < 16 <;> simp [State.push, State.withKeys, h]

theorem State.pop_withKeys : (s.withKeys keys prev).pop = s.pop.map fun p => (p.1, p.2.withKeys keys prev) := by
  by_cases h : 0 < s.sp.val <;> simp [State.pop, State.withKeys, h]

end

/-- Execution commutes with a change of the samples that the instruction does not read: FX0A reads both, EX9E and EXA1
this step's. -/
theorem exec_withKeys {i : Instr} {s t : State} {keys prev : Word} (hwait : i.mnemonic ≠ "FX0A")
    (hskip : i.mnemonic ∈ ["EX9E", "EXA1"] → keys = s.keysIn) (h : exec i s = .next t) :
    exec i (s.withKeys keys prev) = .next (t.withKeys keys prev) := by
  cases i with
  | opFX0A x => exact absurd rfl hwait
  | op00EE =>
    simp only [exec, exec00EE, State.pop_withKeys] at h ⊢
    cases hp : s.pop with
    | none => rw [hp] at h; cases h; rfl
    | some p => rw [hp] at h; cases h; rfl
  | op2NNN nnn =>
    simp only [exec, exec2NNN, State.push_withKeys] at h ⊢
    cases hp : s.push with
    | none => rw [hp] at h; cases h; rfl
    | some p => rw [hp] at h; cases h; rfl
  | opEX9E x =>
    obtain rfl := hskip (by simp [Instr.mnemonic])
    simp only [exec, execEX9E, State.readV_withKeys] at h ⊢
    split at h <;> cases h <;> rfl
  | opEXA1 x =>
    obtain rfl := hskip (by simp [Instr.mnemonic])
    simp only [exec, execEXA1, State.readV_withKeys] at h ⊢
    split at h <;> cases h <;> rfl
  | opFX1E x =>
    simp only [exec, execFX1E, State.readV_withKeys, State.withKeys_i] at h ⊢
    split at h <;> cases h <;> simp [*] <;> rfl
  | opFX33 x =>
    simp only [exec, execFX33, State.readV_withKeys, State.withKeys_mem, State.withKeys_dataAddr] at h ⊢
    split at h <;> cases h <;> rfl
  | opFX55 x =>
    simp only [exec, execFX55, State.regBlock_withKeys, State.withKeys_mem, State.withKeys_dataAddr] at h ⊢
    split at h <;> cases h <;> rfl
  | opFX65 x =>
    simp only [exec, execFX65, State.withKeys_mem, State.withKeys_dataAddr] at h ⊢
    split at h <;> cases h <;> rfl
  | opDXYN x y n =>
    simp only [exec, execDXYN, State.readV_withKeys, State.withKeys_mem, State.withKeys_dataAddr] at h ⊢
    split at h <;> cases h <;> rfl
  | _ => cases h; rfl

theorem exec_keysIn {i : Instr} {s t : State} (h : exec i s = .next t) : t.keysIn = s.keysIn := by
  rcases exec_cases h with ⟨kind, info, -, -, rfl⟩ | ⟨-, -, hkeys, -⟩
  · rfl
  · exact hkeys

/-- Settles O24: the changed samples are carried through the execution; in the second part the present sample is the
state's own. -/
theorem onlyKeyInstructionsReadTheKeypad : Obligations.OnlyKeyInstructionsReadTheKeypad := by
  intro i s t keys prev h
  refine ⟨fun hi => ?_, fun hi => ?_⟩
  · refine exec_withKeys (fun hw => hi (by simp [hw])) (fun hs => absurd hs fun hm => hi ?_) h
    exact List.mem_append_left ["FX0A"] hm
  · show exec i (s.withKeys s.keysIn prev) = .next (t.withKeys t.keysIn prev)
    rw [exec_keysIn h]
    exact exec_withKeys hi (fun _ => rfl) h

end Sys2Proof.Machine

/-! The memory family: block accesses that run out of memory, what a store leaves in memory, and who writes memory. -/

namespace Sys2Proof.Machine

/-! O30: an access past the end of memory -/

/-- `i` accesses the `len` bytes of memory from I up, one byte at least (R163, R164, R165, R171). -/
def AccessesBlock (i : Instr) (len : Nat) : Prop :=
  (∃ x, i = .opFX33 x ∧ len = 3) ∨ (∃ x, i = .opFX55 x ∧ len = x.val + 1) ∨
    (∃ x, i = .opFX65 x ∧ len = x.val + 1) ∨ ∃ x y n, i = .opDXYN x y n ∧ len = n.toNat ∧ 0 < n.toNat

/-- A block that reaches past 4095 faults with the lowest address outside memory (R56). -/
theorem exec_of_block_outside {i : Instr} {len : Nat} {s : State} (hi : AccessesBlock i len)
    (hout : 4096 < s.dataAddr + len) :
    exec i s = .next (s.faulted ⟨.memoryOutOfBounds, s.pc, some (encode i), max s.dataAddr 4096⟩) := by
  obtain ⟨t, ht⟩ := exec_answers i s
  rw [ht]
  rcases hi with ⟨x, rfl, rfl⟩ | ⟨x, rfl, rfl⟩ | ⟨x, rfl, rfl⟩ | ⟨x, y, n, rfl, rfl, hn⟩
  · rcases execFX33_cases ht with ⟨-, rfl⟩ | ⟨hin, -⟩
    · rfl
    · omega
  · rcases execFX55_cases ht with ⟨-, rfl⟩ | ⟨hin, -⟩
    · rfl
    · omega
  · rcases execFX65_cases ht with ⟨-, rfl⟩ | ⟨hin, -⟩
    · rfl
    · omega
  · rcases execDXYN_cases ht with ⟨-, -, rfl⟩ | ⟨hin, -⟩
    · rfl
    · omega

theorem AccessesBlock.len_pos {i : Instr} {len : Nat} (hi : AccessesBlock i len) : 0 < len := by
  rcases hi with ⟨-, -, rfl⟩ | ⟨-, -, rfl⟩ | ⟨-, -, rfl⟩ | ⟨x, y, n, -, rfl, hn⟩
  · decide
  · exact Nat.succ_pos _
  · exact Nat.succ_pos _
  · exact hn

/-- Settles O30: the lowest address outside memory is the larger of I and 4096. -/
theorem blockAccessOutsideMemoryFaults : Obligations.BlockAccessOutsideMemoryFaults := by
  intro i len s hi hout
  have hlen : 0 < len := AccessesBlock.len_pos hi
  exact ⟨_, max s.dataAddr 4096, exec_of_block_outside hi hout, le_max_right _ _, le_max_left _ _, by omega,
    fun b hlo hb => by omega, rfl, rfl, sameExcept_faulted _ _⟩

/-! O32: the bytes that FX55 stores -/

/-- FX55 with its bytes inside memory stores the register block (R164). -/
theorem execFX55_of_inside {x : Reg} {s : State} (hin : s.dataAddr + x.val < 4096) :
    exec (.opFX55 x) s =
      .next { s with pc := s.pc + 2, mem := Memory.storeAll s.mem s.dataAddr (s.regBlock x) } := by
  obtain ⟨t, ht⟩ := exec_answers (.opFX55 x) s
  rcases execFX55_cases ht with ⟨hout, -⟩ | ⟨-, rfl⟩
  · omega
  · exact ht

/-- Byte `r` of a stored register block is V[r]. -/
theorem read_storeAll_regBlock {s : State} {x r : Reg} {a : Nat} (hwf : s.mem.wf = true) (hin : a + x.val < 4096)
    (hr : r ≤ x) : Memory.read (Memory.storeAll s.mem a (s.regBlock x)) (a + r.val) = s.readV r := by
  have hlen : r.val < (s.regBlock x).length := by
    rw [State.length_regBlock]
    exact Nat.lt_succ_of_le hr
  rw [Memory.read_storeAll_inside hwf (by rw [State.length_regBlock]; exact hin) hlen, State.getElem_regBlock]

/-- Settles O32: the two bytes at I are bytes 0 and 1 of the stored block. -/
theorem storedBytesAreFetched : Obligations.StoredBytesAreFetched := by
  intro x s hwf hx hin
  have h0 := read_storeAll_regBlock (r := 0) hwf hin (Fin.zero_le x)
  have h1 := read_storeAll_regBlock (r := 1) hwf hin hx
  refine ⟨_, execFX55_of_inside hin, _, fetch_eq_ok.mpr ⟨?_, rfl⟩, ?_⟩
  · show s.dataAddr + 1 < 4096
    omega
  · rw [wordOfBytes_toNat]
    exact congrArg₂ (fun hi lo : Byte => hi.toNat * 256 + lo.toNat) h0 h1

/-! O51: the writers of memory -/

/-- A block write changes bytes of its block alone. -/
theorem Memory.mem_block_of_read_storeAll_ne {m : Memory} {a c : Nat} {bs : List Byte}
    (h : Memory.read (Memory.storeAll m a bs) c ≠ Memory.read m c) : a ≤ c ∧ c < a + bs.length := by
  by_contra hout
  exact h (Memory.read_storeAll_outside m (by omega))

/-- Only the two stores write memory. -/
theorem Effect.mem_eq {s t : State} {i : Instr} (h : Effect s i t) :
    t.mem = s.mem ∨ (∃ x, i = .opFX33 x) ∨ ∃ x, i = .opFX55 x := by
  cases h with
  | store _ hi _ => exact .inr hi
  | _ => exact .inl rfl

/-- An instruction that changes a byte of memory is a store, and the byte lies in its block (R163, R164). -/
theorem exec_store_of_read_ne {i : Instr} {s t : State} {a : Nat} (h : exec i s = .next t)
    (hne : Memory.read t.mem a ≠ Memory.read s.mem a) :
    (∃ x, i = .opFX33 x ∧ s.dataAddr ≤ a ∧ a < s.dataAddr + 3) ∨
      ∃ x, i = .opFX55 x ∧ s.dataAddr ≤ a ∧ a ≤ s.dataAddr + x.val := by
  rcases exec_faulted_or_effect h with ⟨r, rfl⟩ | hu
  · exact absurd rfl hne
  rcases hu.mem_eq with hmem | ⟨x, rfl⟩ | ⟨x, rfl⟩
  · exact absurd (by rw [hmem]) hne
  · rcases execFX33_cases h with ⟨-, rfl⟩ | ⟨-, rfl⟩
    · exact absurd rfl hne
    · exact .inl ⟨x, rfl, Memory.mem_block_of_read_storeAll_ne hne⟩
  · rcases execFX55_cases h with ⟨-, rfl⟩ | ⟨-, rfl⟩
    · exact absurd rfl hne
    · obtain ⟨hlo, hhi⟩ := Memory.mem_block_of_read_storeAll_ne hne
      rw [State.length_regBlock] at hhi
      exact .inr ⟨x, rfl, hlo, Nat.le_of_lt_succ hhi⟩

/-- The memory after a step is the instruction's or, when it faulted, the one before. -/
theorem State.settle_mem (s t : State) : (s.settle t).mem = s.mem ∨ (s.settle t).mem = t.mem := by
  cases hf : t.fault with
  | none => exact .inr (by rw [State.settle_of_none hf, State.endStep_mem])
  | some r => exact .inl (by rw [State.settle_of_some hf, State.faulted_mem])

/-- Settles O51: of the cases of a step only an instruction changes memory, and only as its execution does. -/
theorem onlyStoresWriteMemory : Obligations.OnlyStoresWriteMemory := by
  intro s t a h hne
  obtain ⟨-, ⟨x, -, rfl⟩ | ⟨-, b, -, rfl⟩ | ⟨-, op, -, -, rfl⟩ | ⟨i, u, hi, hu, rfl⟩⟩ := step_cases h
  · rcases s.startStep.keyWaitCheck_cases x with ⟨k, -, hk⟩ | ⟨-, hk⟩ <;> rw [hk] at hne <;> exact absurd rfl hne
  · exact absurd rfl hne
  · exact absurd rfl hne
  · have hmem : (s.settle u).mem = u.mem := (s.settle_mem u).resolve_left fun hs => hne (by rw [hs])
    rw [hmem] at hne
    rcases exec_store_of_read_ne hu hne with ⟨x, rfl, hblock⟩ | ⟨x, rfl, hblock⟩
    · exact .inl ⟨x, hi, hblock⟩
    · exact .inr ⟨x, hi, hblock⟩

end Sys2Proof.Machine

/-! The encoding family: decoder, encoder and the opcode table (R70 to R80), and the step on an illegal word. -/

namespace Sys2Proof

/-! O1: encode, then decode -/

/-- R74, R75: the decoder reads back the family, sub-opcode and operand fields of the word that a format builds. -/
theorem decode_encode (i : Instr) : decode (encode i) = .ok i := by
  cases i with
  | op00E0 | op00EE => rfl
  | op8XY0 | op8XY1 | op8XY2 | op8XY3 | op8XY4 | op8XY5 | op8XY6 | op8XY7 | op8XYE => simp [encode, decode, decode8]
  | opEX9E | opEXA1 => simp [encode, decode, decodeE]
  | opFX07 | opFX0A | opFX15 | opFX18 | opFX1E | opFX29 | opFX33 | opFX55 | opFX65 => simp [encode, decode, decodeF]
  | _ => simp [encode, decode]

/-- A word that decodes also decodes from its two bytes, which are taken off the front of the string (R52, R70). -/
theorem decodeBytes_of_decode {op : Word} {i : Instr} (h : decode op = .ok i) (rest : List Byte) :
    decodeBytes (highByte op :: lowByte op :: rest) = .ok (i, rest) := by
  simp [decodeBytes, h]

/-- Settles O1: the word by `decode_encode`, its bytes because they combine to the word again. -/
theorem decodeOfEncodeIsTheInstruction : Obligations.DecodeOfEncodeIsTheInstruction :=
  fun i rest => ⟨decode_encode i, decodeBytes_of_decode (decode_encode i) rest⟩

/-! O2: decode, then encode -/

theorem formatA_of_fields {op : Word} {f : BitVec 4} (hf : fieldF op = f) : formatA f (fieldNNN op) = op :=
  hf ▸ formatA_fields op

theorem formatXK_of_fields {op : Word} {f : BitVec 4} {nn : Byte} (hf : fieldF op = f) (hnn : fieldNN op = nn) :
    formatXK f (fieldX op) nn = op :=
  hf ▸ hnn ▸ formatXK_fields op

theorem formatXYN_of_fields {op : Word} {f : BitVec 4} {n : Nibble} (hf : fieldF op = f) (hn : fieldN op = n) :
    formatXYN f (fieldX op) (fieldY op) n = op :=
  hf ▸ hn ▸ formatXYN_fields op

theorem encode_of_decode8 {op : Word} {i : Instr} (hf : fieldF op = 0x8) (h : decode8 op = .ok i) : encode i = op := by
  unfold decode8 at h
  split at h
  case h_10 => cases h
  all_goals
    next hn =>
      cases h
      exact formatXYN_of_fields hf hn

theorem encode_of_decodeE {op : Word} {i : Instr} (hf : fieldF op = 0xE) (h : decodeE op = .ok i) : encode i = op := by
  unfold decodeE at h
  split at h
  case h_3 => cases h
  all_goals
    next hnn =>
      cases h
      exact formatXK_of_fields hf hnn

theorem encode_of_decodeF {op : Word} {i : Instr} (hf : fieldF op = 0xF) (h : decodeF op = .ok i) : encode i = op := by
  unfold decodeF at h
  split at h
  case h_10 => cases h
  all_goals
    next hnn =>
      cases h
      exact formatXK_of_fields hf hnn

/-- R77, R78: family by family, the instruction carries every field of the word that its format leaves free. -/
theorem encode_of_decode {op : Word} {i : Instr} (h : decode op = .ok i) : encode i = op := by
  unfold decode at h
  split at h <;> rename_i hf
  case h_1 =>
    split at h
    · next h0 => cases h; exact h0.symm
    · split at h
      · next h1 => cases h; exact h1.symm
      · cases h
  case h_2 | h_3 | h_11 | h_12 => cases h; exact formatA_of_fields hf
  case h_4 | h_5 | h_7 | h_8 | h_13 => cases h; exact formatXK_of_fields hf rfl
  case h_6 | h_10 =>
    split at h
    · next hn => cases h; exact formatXYN_of_fields hf hn
    · cases h
  case h_9 => exact encode_of_decode8 hf h
  case h_14 => cases h; exact formatXYN_of_fields hf rfl
  case h_15 => exact encode_of_decodeE hf h
  case h_16 => exact encode_of_decodeF hf h
  case h_17 => cases h

/-- Settles O2: each format puts the fields of the word back in their places. -/
theorem encodeOfDecodeIsTheWord : Obligations.EncodeOfDecodeIsTheWord :=
  fun _ _ => encode_of_decode

/-! O3: the decoder and the opcode table -/

open Laws.EncodingRow in
/-- The word of every instruction is accepted by the instruction's own row of R74. -/
theorem row_accepts_encode (i : Instr) :
    ∃ r ∈ opcodeTable, r.mnemonic = i.mnemonic ∧ r.accepts (encode i) = true :=
  And.right <| show Statement i from
    match i with
    | .op00E0 => op00E0
    | .op00EE => op00EE
    | .op1NNN nnn => op1NNN nnn
    | .op2NNN nnn => op2NNN nnn
    | .op3XNN x nn => op3XNN x nn
    | .op4XNN x nn => op4XNN x nn
    | .op5XY0 x y => op5XY0 x y
    | .op6XNN x nn => op6XNN x nn
    | .op7XNN x nn => op7XNN x nn
    | .op8XY0 x y => op8XY0 x y
    | .op8XY1 x y => op8XY1 x y
    | .op8XY2 x y => op8XY2 x y
    | .op8XY3 x y => op8XY3 x y
    | .op8XY4 x y => op8XY4 x y
    | .op8XY5 x y => op8XY5 x y
    | .op8XY6 x y => op8XY6 x y
    | .op8XY7 x y => op8XY7 x y
    | .op8XYE x y => op8XYE x y
    | .op9XY0 x y => op9XY0 x y
    | .opANNN nnn => opANNN nnn
    | .opBNNN nnn => opBNNN nnn
    | .opCXNN x nn => opCXNN x nn
    | .opDXYN x y n => opDXYN x y n
    | .opEX9E x => opEX9E x
    | .opEXA1 x => opEXA1 x
    | .opFX07 x => opFX07 x
    | .opFX0A x => opFX0A x
    | .opFX15 x => opFX15 x
    | .opFX18 x => opFX18 x
    | .opFX1E x => opFX1E x
    | .opFX29 x => opFX29 x
    | .opFX33 x => opFX33 x
    | .opFX55 x => opFX55 x
    | .opFX65 x => opFX65 x

/-- A word that decodes is accepted by the row of its instruction, since it is that instruction's word. -/
theorem row_accepts_of_decode {op : Word} {i : Instr} (h : decode op = .ok i) :
    ∃ r ∈ opcodeTable, r.mnemonic = i.mnemonic ∧ r.accepts op = true := by
  have hrow := row_accepts_encode i
  rwa [encode_of_decode h] at hrow

/-- R76, R77: the decoder refuses a word that belongs to no row, with the word in the error. -/
theorem decode_of_not_wellFormedWord {op : Word} (hill : wellFormedWord op = false) :
    decode op = .error (.unknownOpcode op) := by
  cases h : decode op with
  | error e => rw [decode_error h]
  | ok i =>
    obtain ⟨r, hr, -, hacc⟩ := row_accepts_of_decode h
    exact absurd hacc (List.any_eq_false.mp hill r hr)

/-- R74, R75: the decoder refuses no word that belongs to a row. -/
theorem decode_of_wellFormedWord {op : Word} (hwf : wellFormedWord op = true) : ∃ i, decode op = .ok i := by
  cases h : decode op with
  | ok i => exact ⟨i, rfl⟩
  | error e =>
    rw [wellFormedWord_of_decode_error h] at hwf
    cases hwf

/-- Settles O3: a legal word is the word of its instruction, which its row accepts; a refused word is in no row. -/
theorem decodeFollowsTheOpcodeTable : Obligations.DecodeFollowsTheOpcodeTable :=
  fun _ => ⟨fun _ => row_accepts_of_decode, decode_of_wellFormedWord, decode_of_not_wellFormedWord⟩

/-! O4: the rows are disjoint -/

/-- Two rows differ in a bit that both of them fix. -/
def OpcodeRow.Clash (r r' : OpcodeRow) : Prop := r.pattern &&& r'.mask ≠ r'.pattern &&& r.mask

theorem OpcodeRow.clash_symm : Std.Symm OpcodeRow.Clash := ⟨fun _ _ => Ne.symm⟩

/-- Rows that clash accept no word in common: the word would have the bits of both where both fix them. -/
theorem OpcodeRow.not_clash_of_accepts {r r' : OpcodeRow} {op : Word} (h : r.accepts op = true)
    (h' : r'.accepts op = true) : ¬ r.Clash r' := by
  have hr : op &&& r.mask = r.pattern := eq_of_beq h
  have hr' : op &&& r'.mask = r'.pattern := eq_of_beq h'
  rw [Clash, not_not, ← hr, ← hr', BitVec.and_assoc, BitVec.and_assoc, BitVec.and_comm r.mask]

/-- Two rows of R74 differ in the family or, in one family, in the sub-opcode. -/
theorem opcodeTable_pairwise_clash : opcodeTable.Pairwise OpcodeRow.Clash := by
  unfold OpcodeRow.Clash
  decide

/-- Settles O4: two different rows differ in a bit that both fix, so no word has the bits of both. -/
theorem opcodeTableRowsAreDisjoint : Obligations.OpcodeTableRowsAreDisjoint := by
  intro r r' op hr hr' h h'
  by_contra hne
  have := OpcodeRow.clash_symm
  exact OpcodeRow.not_clash_of_accepts h h' (opcodeTable_pairwise_clash.forall hr hr' hne)

/-! O5: the example words -/

/-- Settles O5: the decoder evaluated on R80's seven words. -/
theorem exampleWordsDecodeAsListed : Obligations.ExampleWordsDecodeAsListed := by
  unfold Obligations.ExampleWordsDecodeAsListed
  decide

end Sys2Proof

/-! O43: the step on an illegal word -/

namespace Sys2Proof.Machine

/-- A step whose fetched word the decoder refuses leaves the record of the word and BEEP = 0 alone (R102, R111). -/
theorem step_of_decode_error {s : State} {op : Word} {e : DecodeError} (hf : s.fault = none) (hw : s.wait = .running)
    (hop : fetch s = .ok op) (he : decode op = .error e) :
    step s = .next (s.faulted ⟨.unknownOpcode, s.pc, some op, op.toNat⟩) := by
  simp only [step, hf, hw, hop, he, raise_eq, finishStep]
  rfl

/-- Settles O43: the decoder refuses a word that is in no row of the table, and the step raises the fault. -/
theorem illegalWordFaultsWithTheWord : Obligations.IllegalWordFaultsWithTheWord :=
  fun _ _ hf hw hop hill => step_of_decode_error hf hw hop (decode_of_not_wellFormedWord hill)

end Sys2Proof.Machine

/-! O23: execution and the random byte. -/

namespace Sys2Proof.Machine

section
variable (b : Byte) (s : State)

@[simp] theorem setRandom_dataAddr : (setRandom b s).dataAddr = s.dataAddr := rfl
@[simp] theorem setRandom_regBlock (x : Reg) : (setRandom b s).regBlock x = s.regBlock x := rfl
@[simp] theorem setRandom_newKey : (setRandom b s).newKey = s.newKey := rfl

theorem setRandom_push : (setRandom b s).push = s.push.map (setRandom b) := by
  by_cases h : s.sp.val < 16 <;> simp [State.push, setRandom, h]

theorem setRandom_pop : (setRandom b s).pop = s.pop.map fun p => (p.1, setRandom b p.2) := by
  by_cases h : 0 < s.sp.val <;> simp [State.pop, setRandom, h]

end

/-- Settles O23: on each path of the execution the state after it carries the changed byte along; the paths branch on
parts of the state that hold no random byte. -/
theorem onlyCXNNReadsTheRandomByte : Obligations.OnlyCXNNReadsTheRandomByte := by
  intro i s t b hi h
  cases i with
  | opCXNN x nn => exact absurd rfl hi
  | op00EE =>
    simp only [exec, exec00EE, setRandom_pop] at h ⊢
    cases hp : s.pop with
    | none | some p => rw [hp] at h; cases h; rfl
  | op2NNN nnn =>
    simp only [exec, exec2NNN, setRandom_push] at h ⊢
    cases hp : s.push with
    | none | some p => rw [hp] at h; cases h; rfl
  | opEX9E x | opEXA1 x =>
    simp only [exec, execEX9E, execEXA1, readV_setRandom] at h ⊢
    split at h <;> cases h <;> rfl
  | opFX0A x =>
    simp only [exec, execFX0A, setRandom_newKey] at h ⊢
    split at h <;> cases h <;> rfl
  | opFX1E x =>
    simp only [exec, execFX1E, readV_setRandom, setRandom_i] at h ⊢
    split at h
    · next hsum => cases h; exact if_pos hsum
    · next hsum => cases h; exact if_neg hsum
  | opFX33 x | opFX55 x | opFX65 x | opDXYN x y n =>
    simp only [exec, execFX33, execFX55, execFX65, execDXYN, setRandom_regBlock, readV_setRandom, setRandom_mem,
      setRandom_dataAddr] at h ⊢
    split at h <;> cases h <;> rfl
  | _ => cases h; rfl

end Sys2Proof.Machine

/-! The step-cycle family: the key-wait check, the end of a step, and what each outcome of a step leaves (R100 to R111). -/

namespace Sys2Proof.Machine

/-! O41: the step in a key-wait -/

/-- A key that is down now and was up before, with no such key below it, is the lowest new key. -/
theorem State.newKey_of_lowest {s : State} {k : Nat} (hk : k < 16) (hdown : s.keysIn.getLsbD k = true)
    (hup : s.kprev.getLsbD k = false)
    (hlow : ∀ j, j < k → s.keysIn.getLsbD j = true → s.kprev.getLsbD j = true) : s.newKey = some k :=
  State.newKey_eq_some.mpr ⟨hk, by simp [State.keyNew, hdown, hup], fun j hj => by simpa [State.keyNew] using hlow j hj⟩

/-- When every key that is down was down before, no key is new. -/
theorem State.newKey_of_held {s : State}
    (h : ∀ k, k < 16 → s.keysIn.getLsbD k = true → s.kprev.getLsbD k = true) : s.newKey = none :=
  State.newKey_eq_none.mpr fun k hk => by simpa [State.keyNew] using h k hk

section
variable (s : State) (x : Reg)

theorem State.keyWaitCheck_of_some {k : Nat} (h : s.newKey = some k) :
    s.keyWaitCheck x = { (s.writeV x (BitVec.ofNat 8 k)).advance with wait := .running } := by
  simp only [State.keyWaitCheck, h]

theorem State.keyWaitCheck_of_none (h : s.newKey = none) : s.keyWaitCheck x = s := by
  simp only [State.keyWaitCheck, h]

/-- The key-wait check writes V[x], PC and WAIT alone. -/
theorem sameExcept_keyWaitCheck : SameExceptList [.v x, .pc, .wait] s (s.keyWaitCheck x) := by
  rcases s.keyWaitCheck_cases x with ⟨k, -, hk⟩ | ⟨-, hk⟩ <;> rw [hk]
  · intro c hc
    cases c with
    | v q => exact State.readV_writeV_ne s (by simpa using hc) _
    | pc | wait => simp at hc
    | _ => rfl
  · exact .refl _ s

@[simp] theorem State.keyWaitCheck_dt : (s.keyWaitCheck x).dt = s.dt := sameExcept_keyWaitCheck s x .dt (by simp)
@[simp] theorem State.keyWaitCheck_st : (s.keyWaitCheck x).st = s.st := sameExcept_keyWaitCheck s x .st (by simp)
@[simp] theorem State.keyWaitCheck_beep : (s.keyWaitCheck x).beep = s.beep := sameExcept_keyWaitCheck s x .beep (by simp)
@[simp] theorem State.keyWaitCheck_keysIn : (s.keyWaitCheck x).keysIn = s.keysIn :=
  sameExcept_keyWaitCheck s x .keysIn (by simp)

/-- Two frames one after the other name the components of both. -/
theorem SameExceptList.append {l l' : List Component} {s t u : State} (h : SameExceptList l s t)
    (h' : SameExceptList l' t u) : SameExceptList (l ++ l') s u :=
  SameExcept.trans (h.mono fun _ => List.mem_append_left l') (h'.mono fun _ => List.mem_append_right l)

/-- The start of a step clears BEEP alone. -/
theorem sameExcept_startStep : SameExceptList [.beep] s s.startStep := by
  intro c hc
  cases c with
  | beep => simp at hc
  | _ => rfl

/-- The end of a step writes the timers, BEEP, KPREV and the model's own fields alone. -/
theorem sameExcept_endStep : SameExceptList [.dt, .st, .beep, .kprev, .rndIn, .draws, .loadOpen] s s.endStep := by
  intro c hc
  cases c with
  | dt | st | beep | kprev | rndIn | draws | loadOpen => simp at hc
  | _ => rfl

end

/-- A step that begins to tick with BEEP = 0 ends with BEEP = 1 exactly when ST goes from 1 to 0 (R108). -/
theorem State.endStep_beep_iff {s : State} (h : s.beep = false) : s.endStep.beep = true ↔ s.st.toNat = 1 := by
  simp [h, BitVec.toNat_eq]

/-- A step in a key-wait is the check, then the tick. -/
theorem step_of_awaitingKey {s : State} {x : Reg} (hf : s.fault = none) (hw : s.wait = .awaitingKey x) :
    step s = .next (s.startStep.keyWaitCheck x).endStep := by
  have hnone : (s.startStep.keyWaitCheck x).fault = none := by simpa using hf
  simp only [step, hf, hw, State.settle_of_none hnone]

/-- Settles O41: the check of the key-wait and the tick write different fields, and the check has its two outcomes. -/
theorem keyWaitStepChecksForANewKey : Obligations.KeyWaitStepChecksForANewKey := by
  intro x s hf hw
  refine ⟨_, step_of_awaitingKey hf hw, by simpa using hf, by simp, by simp, ?_, by simp, ?_, ?_, ?_⟩
  · rw [State.endStep_beep_iff (by simp), State.keyWaitCheck_st, State.startStep_st]
  · intro k hk hdown hup hlow
    rw [State.keyWaitCheck_of_some _ x (State.newKey_of_lowest (s := s.startStep) hk hdown hup hlow)]
    refine ⟨?_, rfl, rfl⟩
    have hread : ((s.startStep.writeV x (BitVec.ofNat 8 k)).readV x).toNat = k := by
      rw [State.readV_writeV_same, BitVec.toNat_ofNat]
      omega
    exact hread
  · intro hheld
    rw [State.keyWaitCheck_of_none _ x (State.newKey_of_held (s := s.startStep) hheld)]
    exact ⟨rfl, hw, rfl⟩
  · have hframe := ((sameExcept_startStep s).append (sameExcept_keyWaitCheck _ x)).append (sameExcept_endStep _)
    refine hframe.mono fun c hc => ?_
    simp only [List.cons_append, List.nil_append, List.mem_cons, List.not_mem_nil, or_false] at hc ⊢
    tauto

/-! O47, O49: what a fault and a completed step leave -/

/-- Settles O47: of the outcomes of a step only the fault has a record, and it is precise. -/
theorem faultsArePrecise : Obligations.FaultsArePrecise := by
  intro s t r h hr
  rcases step_outcomes h with ⟨r', -, -, hpc, rfl⟩ | ⟨x, hf, -, rfl⟩ | ⟨i, u, ⟨hf, -⟩, hu, rfl⟩
  · cases hr
    exact ⟨rfl, hpc⟩
  · simp [hf] at hr
  · simp [hu.fault_eq, hf] at hr

/-- An instruction writes DT only when it is FX15 and ST only when it is FX18 (R29, R30). -/
theorem exec_timers {i : Instr} {s t : State} (h : exec i s = .next t) :
    (t.dt = s.dt ∨ ∃ x, i = .opFX15 x) ∧ (t.st = s.st ∨ ∃ x, i = .opFX18 x) := by
  cases i with
  | opFX15 x => cases h; exact ⟨.inr ⟨x, rfl⟩, .inl rfl⟩
  | opFX18 x => cases h; exact ⟨.inl rfl, .inr ⟨x, rfl⟩⟩
  | op00EE => rcases exec00EE_cases h with ⟨-, rfl⟩ | ⟨k, -, rfl⟩ <;> exact ⟨.inl rfl, .inl rfl⟩
  | op2NNN nnn => rcases exec2NNN_cases h with ⟨-, rfl⟩ | ⟨hk, rfl⟩ <;> exact ⟨.inl rfl, .inl rfl⟩
  | opEX9E x => rcases execEX9E_cases h with ⟨-, rfl⟩ | ⟨-, rfl⟩ <;> exact ⟨.inl rfl, .inl rfl⟩
  | opEXA1 x => rcases execEXA1_cases h with ⟨-, rfl⟩ | ⟨-, rfl⟩ <;> exact ⟨.inl rfl, .inl rfl⟩
  | opFX0A x => rcases execFX0A_cases h with ⟨k, -, rfl⟩ | ⟨-, rfl⟩ <;> exact ⟨.inl rfl, .inl rfl⟩
  | opFX1E x => rcases execFX1E_cases h with ⟨-, rfl⟩ | ⟨-, rfl⟩ <;> exact ⟨.inl rfl, .inl rfl⟩
  | opFX33 x => rcases execFX33_cases h with ⟨-, rfl⟩ | ⟨-, rfl⟩ <;> exact ⟨.inl rfl, .inl rfl⟩
  | opFX55 x => rcases execFX55_cases h with ⟨-, rfl⟩ | ⟨-, rfl⟩ <;> exact ⟨.inl rfl, .inl rfl⟩
  | opFX65 x => rcases execFX65_cases h with ⟨-, rfl⟩ | ⟨-, rfl⟩ <;> exact ⟨.inl rfl, .inl rfl⟩
  | opDXYN x y n => rcases execDXYN_cases h with ⟨-, -, rfl⟩ | ⟨-, rfl⟩ <;> exact ⟨.inl rfl, .inl rfl⟩
  | _ => cases h; exact ⟨.inl rfl, .inl rfl⟩

/-- A step that leaves no fault is the end of a key-wait check or of the instruction it fetched. -/
theorem step_completed_cases {s t : State} (h : step s = .next t) (ht : t.fault = none) :
    (∃ x, t = (s.startStep.keyWaitCheck x).endStep) ∨
      ∃ i u, s.Fetches i ∧ exec i s.startStep = .next u ∧ t = u.endStep := by
  obtain ⟨-, ⟨x, -, rfl⟩ | ⟨-, a, -, rfl⟩ | ⟨-, op, -, -, rfl⟩ | ⟨i, u, hi, hu, rfl⟩⟩ := step_cases h
  · exact .inl ⟨x, rfl⟩
  · cases ht
  · cases ht
  · cases hf : u.fault with
    | none => exact .inr ⟨i, u, hi, hu, State.settle_of_none hf⟩
    | some r => simp [State.settle_of_some hf] at ht

/-- Settles O49: neither a key-wait check nor an instruction other than FX15 writes DT before the tick, and neither writes
the keypad vector. -/
theorem completedStepTicksAndRecordsKeys : Obligations.CompletedStepTicksAndRecordsKeys := by
  intro s t h ht
  rcases step_completed_cases h ht with ⟨x, rfl⟩ | ⟨i, u, hi, hu, rfl⟩
  · simp
  · have hkeys : u.keysIn = s.keysIn := exec_keysIn (s := s.startStep) hu
    refine ⟨fun hno => ?_, hkeys, hkeys⟩
    obtain ⟨hdt | ⟨x, rfl⟩, -⟩ := exec_timers hu
    · rw [State.endStep_dt, tickDown_toNat, hdt, State.startStep_dt]
    · exact absurd ⟨x, hi⟩ hno

/-! O42, O44, O45: the step that runs an instruction, that cannot fetch, and that does not happen -/

/-- Settles O42: the step is the execution settled: the tick when there is no fault, the state before it when there is. -/
theorem stepRunsTheDecodedInstruction : Obligations.StepRunsTheDecodedInstruction := by
  intro i s t hi ht
  have hstep : step s = .next (s.settle t) := step_of_fetches hi ht
  refine ⟨fun hf => ⟨t.endStep, ?_, rfl, rfl, rfl, rfl, rfl, rfl, rfl, rfl, rfl, hf, rfl, rfl, rfl, ?_, rfl⟩,
    fun r hr => ?_⟩
  · rw [hstep, State.settle_of_none hf]
  · by_cases hst : t.st = 1#8 <;> simp [hst]
  · rw [hstep, State.settle_of_some hr]
    rfl

/-- A step whose fetch leaves memory raises the fault with the lower address outside and no opcode (R101, R111). -/
theorem step_of_fetch_outside {s : State} (hf : s.fault = none) (hw : s.wait = .running)
    (hpc : 4096 ≤ s.pc.toNat + 1) :
    step s = .next (s.faulted ⟨.memoryOutOfBounds, s.pc, none, max s.pc.toNat 4096⟩) := by
  have hfetch : fetch s = .error (max s.pc.toNat 4096) := fetch_eq_error.mpr ⟨hpc, rfl⟩
  simp only [step, hf, hw, hfetch, raise_eq, finishStep]
  rfl

/-- Settles O44: at 4095 the second byte is outside memory, above it the first; below it the fetch succeeds. -/
theorem fetchFaultsOutsideMemory : Obligations.FetchFaultsOutsideMemory := by
  intro s hf hw
  refine ⟨fun hpc => ?_, fun hpc => ?_, fun hpc => ?_⟩
  · rw [step_of_fetch_outside hf hw (by omega), hpc]
    rfl
  · rw [step_of_fetch_outside hf hw (by omega), Nat.max_eq_left hpc]
    rfl
  · exact ⟨_, fetch_eq_ok.mpr ⟨by omega, rfl⟩, wordOfBytes_toNat _ _⟩

/-- Settles O45: by induction on the number of calls, each of which answers halted and leaves the state. -/
theorem faultedEngineHasNoStep : Obligations.FaultedEngineHasNoStep := by
  intro s r hr
  have hstep : step s = .fault (.halted r) := by simp only [step, hr]
  refine ⟨hstep, fun n => ?_⟩
  induction n with
  | zero => rfl
  | succ n ih => simpa only [List.replicate_succ, hostRun, hostDo, hstep] using ih

end Sys2Proof.Machine

/-! The control-flow family: 1NNN, BNNN, 2NNN and 00EE (R120 to R123). -/

namespace Sys2Proof.Machine

/-! O8, O9: what a call and a return leave when the stack has room and an entry for them -/

/-- With room on the stack 2NNN pushes PC and jumps (R122). -/
theorem exec2NNN_of_room (nnn : Addr) {s : State} (h : s.sp.val < 16) :
    exec (.op2NNN nnn) s =
      .next { s with
        stack := s.stack.set s.sp.val s.pc
        sp := ⟨s.sp.val + 1, Nat.succ_lt_succ h⟩
        pc := zextAddr nnn } := by
  obtain ⟨t, ht⟩ := exec_answers (.op2NNN nnn) s
  rcases exec2NNN_cases ht with ⟨hfull, -⟩ | ⟨_, rfl⟩
  · omega
  · exact ht

/-- With entry `k` on top of the stack 00EE pops it and goes on after it (R120). -/
theorem exec00EE_of_top {s : State} {k : Fin 16} (hk : k.val + 1 = s.sp.val) :
    exec .op00EE s = .next { s with sp := k.castSucc, pc := s.stack[k.val] + 2 } := by
  obtain ⟨t, ht⟩ := exec_answers .op00EE s
  rcases exec00EE_cases ht with ⟨hempty, -⟩ | ⟨j, hj, rfl⟩
  · omega
  · obtain rfl : j = k := Fin.ext (by omega)
    exact ht

/-- A write of one stack entry, SP and PC leaves everything else. -/
theorem sameExcept_stackEntry_sp_pc (s : State) (k : Fin 16) (w : Word) (sp : Fin 17) (p : Word) :
    SameExceptList [.stackEntry k, .sp, .pc] s { s with stack := s.stack.set k.val w, sp := sp, pc := p } := by
  intro c hc
  cases c with
  | stackEntry j =>
    have hne : j ≠ k := by simpa using hc
    exact Vector.getElem_set_ne k.isLt j.isLt (Fin.val_ne_of_ne hne.symm)
  | sp | pc => simp at hc
  | _ => rfl

/-- A write of SP and PC leaves everything else, the stack's entries too (D17). -/
theorem sameExcept_sp_pc (s : State) (sp : Fin 17) (p : Word) :
    SameExceptList [.sp, .pc] s { s with sp := sp, pc := p } := by
  intro c hc
  cases c with
  | sp | pc => simp at hc
  | _ => rfl

/-- Settles O8: the state of a call, field by field. -/
theorem callPushesItsOwnAddress : Obligations.CallPushesItsOwnAddress := fun nnn s h =>
  ⟨_, exec2NNN_of_room nnn h, Vector.getElem_set_self h, rfl, zextAddr_toNat nnn,
    sameExcept_stackEntry_sp_pc s ⟨s.sp.val, h⟩ _ _ _⟩

/-- Settles O9: the state of a return, field by field. -/
theorem returnPopsAndAddsTwo : Obligations.ReturnPopsAndAddsTwo := fun s _ _ hk =>
  ⟨_, exec00EE_of_top hk, rfl, BitVec.toNat_add _ _, sameExcept_sp_pc s _ _⟩

/-! O11: a call and then a return -/

/-- A component that holds the same can be struck from the list of a frame. -/
theorem SameExceptList.of_cons {c : Component} {l : List Component} {s t : State} (h : SameExceptList (c :: l) s t)
    (hc : c.same s t) : SameExceptList l s t := by
  intro d hd
  by_cases hdc : d = c
  · exact hdc ▸ hc
  · exact h d (by simp [hdc, hd])

/-- Settles O11: the return finds the call's entry on top; of the two frames' components SP is restored. -/
theorem callThenReturnComesBackAfterTheCall : Obligations.CallThenReturnComesBackAfterTheCall := by
  intro nnn s h
  have hcall := sameExcept_stackEntry_sp_pc s ⟨s.sp.val, h⟩ s.pc ⟨s.sp.val + 1, Nat.succ_lt_succ h⟩ (zextAddr nnn)
  refine ⟨_, _, exec2NNN_of_room nnn h, exec00EE_of_top (k := ⟨s.sp.val, h⟩) rfl, ?_, rfl,
    SameExceptList.of_cons (c := .sp) ((hcall.append (sameExcept_sp_pc _ _ _)).mono fun c hc => ?_) rfl⟩
  · exact congrArg (· + 2) (Vector.getElem_set_self h)
  · simp only [List.cons_append, List.nil_append, List.mem_cons, List.not_mem_nil, or_false] at hc ⊢
    tauto

/-! O10: a call and a return that the stack refuses -/

/-- Settles O10: the refused push and the refused pop raise their fault and nothing else. -/
theorem fullAndEmptyStackRaiseTheirFault : Obligations.FullAndEmptyStackRaiseTheirFault := by
  refine ⟨fun nnn s hfull => ?_, fun s hempty => ?_⟩
  · obtain ⟨t, ht⟩ := exec_answers (.op2NNN nnn) s
    rcases exec2NNN_cases ht with ⟨-, rfl⟩ | ⟨hroom, -⟩
    · exact ⟨_, ht, rfl, rfl, sameExcept_faulted s _⟩
    · omega
  · obtain ⟨t, ht⟩ := exec_answers .op00EE s
    rcases exec00EE_cases ht with ⟨-, rfl⟩ | ⟨k, hk, -⟩
    · exact ⟨_, ht, rfl, rfl, sameExcept_faulted s _⟩
    · omega

/-! O6, O7: the jumps -/

theorem exec1NNN_eq (nnn : Addr) (s : State) : exec (.op1NNN nnn) s = .next (s.jump (zextAddr nnn)) := rfl

theorem execBNNN_eq (nnn : Addr) (s : State) :
    exec (.opBNNN nnn) s = .next (s.jump (offsetTarget nnn (s.readV 0))) := rfl

/-- Every instruction's word decodes to it, so a format needs its fixed bits alone. -/
theorem encodedAs_of_and_eq {i : Instr} {mask pattern : Word} (h : encode i &&& mask = pattern) :
    i.EncodedAs mask pattern := ⟨h, decode_encode i⟩

/-- A jump to its own address leaves PC, so the next step runs it again; between the two is one tick (R121). -/
theorem step_of_self_jump {nnn : Addr} {s : State} (hi : s.Fetches (.op1NNN nnn)) (hpc : zextAddr nnn = s.pc) :
    ∃ t, step s = .next t ∧ t.Fetches (.op1NNN nnn) ∧ t.pc = s.pc ∧ t.dt = tickDown s.dt ∧ t.st = tickDown s.st := by
  have hstep := step_of_fetches hi (exec1NNN_eq nnn s.startStep)
  obtain ⟨hf, hw, op, hop, hd⟩ := hi
  rw [State.settle_of_none (t := s.startStep.jump (zextAddr nnn)) hf] at hstep
  exact ⟨_, hstep, ⟨hf, hw, op, (fetch_congr (s := s) (t := (s.startStep.jump _).endStep) hpc rfl).trans hop, hd⟩, hpc, rfl, rfl⟩

/-- Settles O6: the jump, the failing fetch at 0xFFF, and the jump to itself. -/
theorem jumpSetsPcToTheAddress : Obligations.JumpSetsPcToTheAddress := by
  intro nnn s
  refine ⟨encodedAs_of_and_eq ((Laws.EncodingRow.formatA_family 0x1 nnn).trans (by decide)),
    ⟨_, exec1NNN_eq nnn s, zextAddr_toNat nnn, sameExcept_jump s _, fun hnnn hf hw => ?_⟩, fun hi hpc => ?_⟩
  · subst hnnn
    exact step_of_fetch_outside hf hw (show 4096 ≤ (zextAddr 0xFFF).toNat + 1 by decide)
  · have hself : zextAddr nnn = s.pc := BitVec.eq_of_toNat_eq ((zextAddr_toNat nnn).trans hpc.symm)
    obtain ⟨t, hstep, hagain, hpc', hdt, hst⟩ := step_of_self_jump hi hself
    exact ⟨t, hstep, hagain, hpc', by rw [hdt, tickDown_toNat], by rw [hst, tickDown_toNat]⟩

/-- Settles O7: PC is the integer sum, and a fetch there fails at the lower address outside memory. -/
theorem offsetJumpAddsV0WithoutMasking : Obligations.OffsetJumpAddsV0WithoutMasking := by
  intro nnn s
  have hpc := offsetTarget_toNat nnn (s.readV 0)
  refine ⟨_, execBNNN_eq nnn s, hpc, sameExcept_jump s _, fun hlast => ?_, fun hout => ?_⟩ <;>
    rw [fetch_eq_error, State.jump_pc, hpc] <;> omega

end Sys2Proof.Machine

/-! The skip family: 3XNN, 4XNN, 5XY0, 9XY0, EX9E and EXA1 (R130 to R136). -/

namespace Sys2Proof

/-! Words of the families 5 and 9 -/

/-- A word's family is read off its bits 15..12. -/
theorem fieldF_of_and_eq {op pattern : Word} (h : op &&& 0xF000 = pattern) : fieldF op = fieldF pattern := by
  rw [← h, fieldF_and]
  exact BitVec.and_allOnes.symm

/-- The field N is what the mask 0x000F keeps of a word. -/
theorem setWidth_fieldN (op : Word) : (fieldN op).setWidth 16 = op &&& 0x000F := by
  refine BitVec.eq_of_toNat_eq ?_
  rw [fieldN, BitVec.toNat_setWidth, BitVec.extractLsb'_toNat, Nat.shiftRight_zero, BitVec.toNat_and,
    Nat.mod_eq_of_lt (by omega)]
  exact (Nat.and_two_pow_sub_one_eq_mod op.toNat 4).symm

/-- Families 5 and 9 have the sub-opcode 0 alone (R75, R76). -/
theorem decode_of_fieldN_ne_zero {op : Word} (hf : fieldF op = 0x5 ∨ fieldF op = 0x9) (hn : fieldN op ≠ 0) :
    decode op = .error (.unknownOpcode op) := by
  rcases hf with hf | hf <;> (simp only [decode, hf, if_neg hn]; rfl)

end Sys2Proof

namespace Sys2Proof.Machine

/-- An instruction that skips on the condition `c` moves PC by 4 or 2 and nothing else (R136). -/
theorem exec_skip_moves_pc {i : Instr} {s : State} {c : Bool} {p : Prop} [Decidable p]
    (h : exec i s = .next (s.skipIf c)) (hc : c = true ↔ p) :
    ∃ t, exec i s = .next t ∧ t.pc = (if p then s.pc + 4 else s.pc + 2) ∧ SameExceptList [.pc] s t := by
  refine ⟨_, h, ?_, sameExcept_jump s _⟩
  rw [State.skipIf_pc, apply_ite (s.pc + ·)]
  exact if_congr hc rfl rfl

/-! O12, O13: the skips on register values, and the condition of each in integers -/

theorem exec3XNN_eq (x : Reg) (nn : Byte) (s : State) :
    exec (.op3XNN x nn) s = .next (s.skipIf (s.readV x == nn)) := rfl

theorem exec4XNN_eq (x : Reg) (nn : Byte) (s : State) :
    exec (.op4XNN x nn) s = .next (s.skipIf (s.readV x != nn)) := rfl

theorem exec5XY0_eq (x y : Reg) (s : State) :
    exec (.op5XY0 x y) s = .next (s.skipIf (s.readV x == s.readV y)) := rfl

theorem exec9XY0_eq (x y : Reg) (s : State) :
    exec (.op9XY0 x y) s = .next (s.skipIf (s.readV x != s.readV y)) := rfl

theorem byte_beq_iff (a b : Byte) : (a == b) = true ↔ a.toNat = b.toNat :=
  beq_iff_eq.trans BitVec.toNat_inj.symm

theorem byte_bne_iff (a b : Byte) : (a != b) = true ↔ a.toNat ≠ b.toNat :=
  bne_iff_ne.trans BitVec.toNat_inj.symm.not

/-- Settles O12: the skips on an immediate, each with its word. -/
theorem immediateSkipsMovePcAlone : Obligations.ImmediateSkipsMovePcAlone := fun x nn s =>
  ⟨⟨encodedAs_of_and_eq ((Laws.EncodingRow.formatXK_family 0x3 x nn).trans (by decide)),
      exec_skip_moves_pc (exec3XNN_eq x nn s) (byte_beq_iff _ _)⟩,
    ⟨encodedAs_of_and_eq ((Laws.EncodingRow.formatXK_family 0x4 x nn).trans (by decide)),
      exec_skip_moves_pc (exec4XNN_eq x nn s) (byte_bne_iff _ _)⟩⟩

/-- Settles O13: the skips on two registers, each with its word; with X = Y the values are equal; a word of either family
with N ≠ 0 is refused. -/
theorem registerSkipsMovePcAlone : Obligations.RegisterSkipsMovePcAlone := by
  refine ⟨fun x y s => ⟨⟨?_, ?_⟩, ?_, ?_⟩, fun op hfam hn => ?_⟩
  · exact encodedAs_of_and_eq ((Laws.EncodingRow.formatXYN_family_sub 0x5 x y 0x0).trans (by decide))
  · obtain ⟨t, hexec, hpc, hframe⟩ := exec_skip_moves_pc (exec5XY0_eq x y s) (byte_beq_iff _ _)
    exact ⟨t, hexec, hpc, hframe, fun hxy => hpc.trans (if_pos (by rw [hxy]))⟩
  · exact encodedAs_of_and_eq ((Laws.EncodingRow.formatXYN_family_sub 0x9 x y 0x0).trans (by decide))
  · obtain ⟨t, hexec, hpc, hframe⟩ := exec_skip_moves_pc (exec9XY0_eq x y s) (byte_bne_iff _ _)
    exact ⟨t, hexec, hpc, hframe, fun hxy => hpc.trans (if_neg (by simp [hxy]))⟩
  · refine decode_of_fieldN_ne_zero (hfam.imp fieldF_of_and_eq fieldF_of_and_eq) fun h0 => hn ?_
    rw [← setWidth_fieldN, h0]
    rfl

/-! O14, O15: the skips on a key, by the key number -/

section
variable {x : Reg} {s : State}

theorem execEX9E_of_key (h : (s.readV x).toNat < 16) :
    exec (.opEX9E x) s = .next (s.skipIf (s.keysIn.getLsbD (s.readV x).toNat)) := by
  obtain ⟨t, ht⟩ := exec_answers (.opEX9E x) s
  rcases execEX9E_cases ht with ⟨hbad, -⟩ | ⟨-, rfl⟩
  · omega
  · exact ht

theorem execEXA1_of_key (h : (s.readV x).toNat < 16) :
    exec (.opEXA1 x) s = .next (s.skipIf (!s.keysIn.getLsbD (s.readV x).toNat)) := by
  obtain ⟨t, ht⟩ := exec_answers (.opEXA1 x) s
  rcases execEXA1_cases ht with ⟨hbad, -⟩ | ⟨-, rfl⟩
  · omega
  · exact ht

theorem execEX9E_of_no_key (h : 16 ≤ (s.readV x).toNat) :
    exec (.opEX9E x) s =
      .next (s.faulted ⟨.keyOutOfRange, s.pc, some (encode (.opEX9E x)), (s.readV x).toNat⟩) := by
  obtain ⟨t, ht⟩ := exec_answers (.opEX9E x) s
  rcases execEX9E_cases ht with ⟨-, rfl⟩ | ⟨hkey, -⟩
  · exact ht
  · omega

theorem execEXA1_of_no_key (h : 16 ≤ (s.readV x).toNat) :
    exec (.opEXA1 x) s =
      .next (s.faulted ⟨.keyOutOfRange, s.pc, some (encode (.opEXA1 x)), (s.readV x).toNat⟩) := by
  obtain ⟨t, ht⟩ := exec_answers (.opEXA1 x) s
  rcases execEXA1_cases ht with ⟨-, rfl⟩ | ⟨hkey, -⟩
  · exact ht
  · omega

end

/-- Settles O14: EX9E skips on the key's bit of the sample and EXA1 on its negation. -/
theorem keySkipsReadTheSampledKey : Obligations.KeySkipsReadTheSampledKey := by
  intro x s hkey
  have hlt := Nat.lt_succ_of_le hkey
  refine ⟨exec_skip_moves_pc (execEX9E_of_key hlt) Iff.rfl, ?_⟩
  obtain ⟨t, hexec, hpc, hframe⟩ := exec_skip_moves_pc (execEXA1_of_key hlt) Bool.not_iff_not
  exact ⟨t, hexec, hpc.trans (ite_not _ _ _), hframe⟩

/-- Settles O15: the fault's record is written and nothing else but BEEP. -/
theorem keySkipsFaultOnABadKeyNumber : Obligations.KeySkipsFaultOnABadKeyNumber := fun _ s hbad =>
  ⟨⟨_, execEX9E_of_no_key hbad, rfl, rfl, sameExcept_faulted s _⟩,
    ⟨_, execEXA1_of_no_key hbad, rfl, rfl, sameExcept_faulted s _⟩⟩

end Sys2Proof.Machine

/-! The register and arithmetic family: 6XNN, 7XNN, 8XY0 to 8XY7, 8XYE and CXNN (R140 to R153). -/

namespace Sys2Proof.Machine

/-! The state after one register write, and after a flag and a result -/

/-- An instruction that writes one register leaves everything but that register and PC. -/
theorem sameExcept_writeV_advance (s : State) (x : Reg) (b : Byte) :
    SameExceptList [.v x, .pc] s (s.writeV x b).advance :=
  (sameExcept_writeV s x b).append (sameExcept_jump _ _)

theorem readV_writeV_advance_same (s : State) (x : Reg) (b : Byte) : (s.writeV x b).advance.readV x = b :=
  State.readV_writeV_same s x b

/-- An instruction that writes a flag and a result leaves everything but its destination, VF and PC. -/
theorem sameExcept_writeFlagged_advance (s : State) (x : Reg) (f b : Byte) :
    SameExceptList [.v x, .v vf, .pc] s (s.writeFlagged x f b).advance := by
  refine ((sameExcept_writeV s vf f).append (sameExcept_writeV_advance _ x b)).mono fun c hc => ?_
  simp only [List.cons_append, List.nil_append, List.mem_cons] at hc ⊢
  tauto

/-- The result is written last: with X = F it is the result that stays (R140, D9). -/
theorem readV_writeFlagged_advance_same (s : State) (x : Reg) (f b : Byte) :
    (s.writeFlagged x f b).advance.readV x = b :=
  State.readV_writeV_same _ x b

theorem readV_writeFlagged_advance_vf (s : State) {x : Reg} (hx : x ≠ vf) (f b : Byte) :
    (s.writeFlagged x f b).advance.readV vf = f :=
  (State.readV_writeV_ne _ hx.symm b).trans (State.readV_writeV_same s vf f)

/-! O16, O17, O18, O22: the instructions that write V[X] alone -/

theorem exec6XNN_eq (x : Reg) (nn : Byte) (s : State) : exec (.op6XNN x nn) s = .next (s.writeV x nn).advance := rfl

theorem exec7XNN_eq (x : Reg) (nn : Byte) (s : State) :
    exec (.op7XNN x nn) s = .next (s.writeV x (s.readV x + nn)).advance := rfl

theorem exec8XY0_eq (x y : Reg) (s : State) : exec (.op8XY0 x y) s = .next (s.writeV x (s.readV y)).advance := rfl

theorem exec8XY1_eq (x y : Reg) (s : State) :
    exec (.op8XY1 x y) s = .next (s.writeV x (s.readV x ||| s.readV y)).advance := rfl

theorem exec8XY2_eq (x y : Reg) (s : State) :
    exec (.op8XY2 x y) s = .next (s.writeV x (s.readV x &&& s.readV y)).advance := rfl

theorem exec8XY3_eq (x y : Reg) (s : State) :
    exec (.op8XY3 x y) s = .next (s.writeV x (s.readV x ^^^ s.readV y)).advance := rfl

theorem execCXNN_eq (x : Reg) (nn : Byte) (s : State) :
    exec (.opCXNN x nn) s = .next (s.writeV x (s.rndIn &&& nn)).advance := rfl

/-- Settles O16: one register write, with the words of both formats; a copy of V[X] onto itself leaves V[X] too. -/
theorem loadsWriteTheDestinationAlone : Obligations.LoadsWriteTheDestinationAlone := by
  refine ⟨fun x nn s => ⟨?_, ?_⟩, fun x y s => ⟨?_, ?_⟩⟩
  · exact encodedAs_of_and_eq ((Laws.EncodingRow.formatXK_family 0x6 x nn).trans (by decide))
  · exact ⟨_, exec6XNN_eq x nn s, readV_writeV_advance_same s x nn, rfl, sameExcept_writeV_advance s x nn⟩
  · exact encodedAs_of_and_eq ((Laws.EncodingRow.formatXYN_family_sub 0x8 x y 0x0).trans (by decide))
  · have hread := readV_writeV_advance_same s x (s.readV y)
    have hframe := sameExcept_writeV_advance s x (s.readV y)
    exact ⟨_, exec8XY0_eq x y s, hread, rfl, hframe, fun hxy => hframe.of_cons (hread.trans (by rw [hxy]))⟩

/-- Settles O17: the sum of two bytes is taken mod 256, and VF is outside the frame's list unless it is V[X]. -/
theorem addImmediateWrapsWithoutAFlag : Obligations.AddImmediateWrapsWithoutAFlag := by
  intro x nn s
  have hframe := sameExcept_writeV_advance s x (s.readV x + nn)
  refine ⟨encodedAs_of_and_eq ((Laws.EncodingRow.formatXK_family 0x7 x nn).trans (by decide)),
    _, exec7XNN_eq x nn s, ?_, rfl, hframe, fun hx => hframe (.v vf) (by simpa using hx.symm)⟩
  rw [readV_writeV_advance_same]
  exact BitVec.toNat_add _ _

/-- Settles O18: each bit of a bitwise operation is that operation on the two bits. -/
theorem bitwiseOperationsActBitByBit : Obligations.BitwiseOperationsActBitByBit := by
  refine fun x y s => ⟨⟨_, exec8XY1_eq x y s, fun k _ => ?_, rfl, sameExcept_writeV_advance s x _⟩,
    ⟨_, exec8XY2_eq x y s, fun k _ => ?_, rfl, sameExcept_writeV_advance s x _⟩,
    ⟨_, exec8XY3_eq x y s, fun k _ => ?_, rfl, sameExcept_writeV_advance s x _⟩⟩ <;>
    rw [readV_writeV_advance_same]
  · exact BitVec.getLsbD_or
  · exact BitVec.getLsbD_and
  · exact BitVec.getLsbD_xor

/-- Settles O22: the byte that the host supplied is the one that CXNN masks, whatever it is. -/
theorem randomByteIsMasked : Obligations.RandomByteIsMasked := by
  refine fun x nn b s => ⟨_, execCXNN_eq x nn (setRandom b s), fun k _ => ?_, rfl, sameExcept_writeV_advance _ x _⟩
  rw [readV_writeV_advance_same, setRandom_rndIn]
  exact BitVec.getLsbD_and

/-! The flags and the results in integers -/

theorem carryFlag_eq (a b : Byte) : carryFlag a b = if a.toNat + b.toNat > 255 then 1 else 0 := by
  simp only [carryFlag, flagByte, decide_eq_true_eq]

theorem noBorrowFlag_eq (a b : Byte) : noBorrowFlag a b = if b.toNat > a.toNat then 0 else 1 := by
  simp only [noBorrowFlag, flagByte, Bool.not_eq_true', decide_eq_false_iff_not, ite_not]

theorem flagByte_toNat (c : Bool) : (flagByte c).toNat = c.toNat := by
  cases c <;> rfl

theorem lowBitFlag_toNat (a : Byte) : (lowBitFlag a).toNat = a.toNat % 2 := by
  rw [lowBitFlag, flagByte_toNat, BitVec.getLsbD, Nat.toNat_testBit, Nat.pow_zero, Nat.div_one]

theorem highBitFlag_toNat (a : Byte) : (highBitFlag a).toNat = a.toNat / 128 := by
  have := a.isLt
  rw [highBitFlag, flagByte_toNat, BitVec.getLsbD, Nat.toNat_testBit]
  omega

/-- The difference of two bytes is the integer difference mod 256. -/
theorem byte_sub_toNat (a b : Byte) : ((a - b).toNat : Int) = (a.toNat - b.toNat : Int) % 256 := by
  have := b.isLt
  rw [BitVec.toNat_sub]
  omega

theorem byte_ushiftRight_one_toNat (a : Byte) : (a >>> 1).toNat = a.toNat / 2 := by
  rw [BitVec.toNat_ushiftRight, Nat.shiftRight_one]

theorem byte_shiftLeft_one_toNat (a : Byte) : (a <<< 1).toNat = a.toNat * 2 % 256 := by
  rw [BitVec.toNat_shiftLeft, Nat.shiftLeft_eq, Nat.pow_one]

/-! O19, O20, O21: the instructions that write a flag and V[X], from the operands before any write -/

theorem exec8XY4_eq (x y : Reg) (s : State) :
    exec (.op8XY4 x y) s =
      .next (s.writeFlagged x (carryFlag (s.readV x) (s.readV y)) (s.readV x + s.readV y)).advance := rfl

theorem exec8XY5_eq (x y : Reg) (s : State) :
    exec (.op8XY5 x y) s =
      .next (s.writeFlagged x (noBorrowFlag (s.readV x) (s.readV y)) (s.readV x - s.readV y)).advance := rfl

theorem exec8XY6_eq (x y : Reg) (s : State) :
    exec (.op8XY6 x y) s = .next (s.writeFlagged x (lowBitFlag (s.readV x)) (s.readV x >>> 1)).advance := rfl

theorem exec8XY7_eq (x y : Reg) (s : State) :
    exec (.op8XY7 x y) s =
      .next (s.writeFlagged x (noBorrowFlag (s.readV y) (s.readV x)) (s.readV y - s.readV x)).advance := rfl

theorem exec8XYE_eq (x y : Reg) (s : State) :
    exec (.op8XYE x y) s = .next (s.writeFlagged x (highBitFlag (s.readV x)) (s.readV x <<< 1)).advance := rfl

/-- What an instruction that writes a flag and a result leaves: the result in V[X], for X not F the flag in VF, PC moved by
2, and everything else (R140). -/
theorem exec_flagged_result {i : Instr} {s : State} {x : Reg} {f b : Byte}
    (h : exec i s = .next (s.writeFlagged x f b).advance) :
    ∃ t, exec i s = .next t ∧ t.readV x = b ∧ (x ≠ vf → t.readV vf = f) ∧ t.pc = s.pc + 2 ∧
      SameExceptList [.v x, .v vf, .pc] s t :=
  ⟨_, h, readV_writeFlagged_advance_same s x f b, fun hx => readV_writeFlagged_advance_vf s hx f b, rfl,
    sameExcept_writeFlagged_advance s x f b⟩

/-- Settles O19: the sum mod 256 and its carry. -/
theorem addReportsCarryInVF : Obligations.AddReportsCarryInVF := by
  intro x y s
  obtain ⟨t, hexec, hres, hflag, hpc, hframe⟩ := exec_flagged_result (exec8XY4_eq x y s)
  refine ⟨t, hexec, ?_, fun hx => (hflag hx).trans (carryFlag_eq _ _), hpc, hframe⟩
  rw [hres]
  exact BitVec.toNat_add _ _

/-- A subtraction `a - b` in integers: its difference mod 256 and NOT borrow. -/
theorem exec_difference {i : Instr} {s : State} {x : Reg} {a b : Byte}
    (h : exec i s = .next (s.writeFlagged x (noBorrowFlag a b) (a - b)).advance) :
    ∃ t, exec i s = .next t ∧ ((t.readV x).toNat : Int) = (a.toNat - b.toNat : Int) % 256 ∧
      (x ≠ vf → t.readV vf = if b.toNat > a.toNat then 0 else 1) ∧ t.pc = s.pc + 2 ∧
      SameExceptList [.v x, .v vf, .pc] s t := by
  obtain ⟨t, hexec, hres, hflag, hpc, hframe⟩ := exec_flagged_result h
  exact ⟨t, hexec, by rw [hres, byte_sub_toNat], fun hx => (hflag hx).trans (noBorrowFlag_eq a b), hpc, hframe⟩

/-- Settles O20: 8XY7 is the subtraction of 8XY5 with the operands exchanged. -/
theorem subtractionsReportNoBorrowInVF : Obligations.SubtractionsReportNoBorrowInVF := fun x y s =>
  ⟨exec_difference (exec8XY5_eq x y s), exec_difference (exec8XY7_eq x y s)⟩

/-- Settles O21: half and double of V[X], and the bit that each drops. -/
theorem shiftsReportTheDroppedBitInVF : Obligations.ShiftsReportTheDroppedBitInVF := by
  refine fun x y s => ⟨?_, ?_⟩
  · obtain ⟨t, hexec, hres, hflag, hpc, hframe⟩ := exec_flagged_result (exec8XY6_eq x y s)
    exact ⟨t, hexec, by rw [hres, byte_ushiftRight_one_toNat], fun hx => by rw [hflag hx, lowBitFlag_toNat], hpc, hframe⟩
  · obtain ⟨t, hexec, hres, hflag, hpc, hframe⟩ := exec_flagged_result (exec8XYE_eq x y s)
    exact ⟨t, hexec, by rw [hres, byte_shiftLeft_one_toNat], fun hx => by rw [hflag hx, highBitFlag_toNat], hpc, hframe⟩

end Sys2Proof.Machine

/-! The index and memory family: ANNN, FX1E, FX29, FX33, FX55 and FX65 (R160 to R166). -/

namespace Sys2Proof.Machine

/-! O28, O29: a register block stored from I up and loaded from I up -/

/-- A block stored from I up leaves everything but its own bytes and PC, I too (R166, D15). -/
theorem sameExcept_store (s : State) (p : Word) (bs : List Byte) :
    SameExcept (fun c => c = .pc ∨ ∃ k, k < bs.length ∧ c = .memByte (s.dataAddr + k)) s
      { s with pc := p, mem := Memory.storeAll s.mem s.dataAddr bs } := by
  intro c hc
  cases c with
  | pc => exact absurd (.inl rfl) hc
  | memByte a =>
    by_contra hne
    obtain ⟨hlo, hhi⟩ := Memory.mem_block_of_read_storeAll_ne hne
    exact hc (.inr ⟨a - s.dataAddr, by omega, by rw [Nat.add_sub_of_le hlo]⟩)
  | _ => rfl

/-- Settles O28: the stored block holds the registers up to X, and the frame is that of its X + 1 bytes. -/
theorem registersAreStoredAtIndex : Obligations.RegistersAreStoredAtIndex := by
  intro x s hwf hin
  refine ⟨_, execFX55_of_inside hin, fun r hr => read_storeAll_regBlock hwf hin hr, rfl,
    (sameExcept_store s _ _).mono fun c hc => hc.imp_right fun ⟨k, hk, hmem⟩ => ⟨k, ?_, hmem⟩⟩
  rw [State.length_regBlock] at hk
  exact Nat.le_of_lt_succ hk

/-- FX65 with its bytes inside memory loads the block (R165). -/
theorem execFX65_of_inside {x : Reg} {s : State} (hin : s.dataAddr + x.val < 4096) :
    exec (.opFX65 x) s = .next (s.loadRegs (Memory.loadAll s.mem s.dataAddr (x.val + 1))).advance := by
  obtain ⟨t, ht⟩ := exec_answers (.opFX65 x) s
  rcases execFX65_cases ht with ⟨hout, -⟩ | ⟨-, rfl⟩
  · omega
  · exact ht

/-- After a load of `n` registers register `r` of them holds byte `r` of the block. -/
theorem readV_loadRegs_loadAll (s : State) {m : Memory} {a n : Nat} {r : Reg} (hr : r.val < n) :
    (s.loadRegs (Memory.loadAll m a n)).readV r = Memory.read m (a + r.val) := by
  rw [State.readV_loadRegs, List.getD_eq_getElem?_getD, Memory.getElem?_loadAll, if_pos hr, Option.getD_some]

/-- A write of registers that keeps those outside `p`, and of PC, leaves everything else. -/
theorem sameExcept_pc_registers (s : State) (pc : Word) {p : Reg → Prop} {v : Vector Byte 16}
    (h : ∀ r : Reg, ¬ p r → v[r.val] = s.readV r) :
    SameExcept (fun c => c = .pc ∨ ∃ r, p r ∧ c = .v r) s { s with pc := pc, v := v } := by
  intro c hc
  cases c with
  | pc => exact absurd (.inl rfl) hc
  | v r => exact h r fun hr => hc (.inr ⟨r, hr, rfl⟩)
  | _ => rfl

/-- Settles O29: the registers up to X hold the bytes of the block, which has no byte for the others. -/
theorem registersAreLoadedFromIndex : Obligations.RegistersAreLoadedFromIndex := by
  intro x s hin
  refine ⟨_, execFX65_of_inside hin, fun r hr => ?_, rfl, sameExcept_pc_registers s _ fun r hr => ?_⟩
  · rw [State.readV_advance, readV_loadRegs_loadAll s (Nat.lt_succ_of_le hr)]
  · have hout : x.val + 1 ≤ r.val := Fin.lt_def.mp (not_le.mp hr)
    exact (State.readV_loadRegs s _ r).trans (List.getD_eq_default _ _ (by rwa [Memory.length_loadAll]))

/-! O31: a store and then a load -/

/-- Settles O31: register `r` is loaded from byte `r` of the block, which is where it was stored. -/
theorem storedRegistersLoadBack : Obligations.StoredRegistersLoadBack := by
  intro x s u hwf hin
  obtain ⟨t, hstore, hstored, -, hframe⟩ := registersAreStoredAtIndex x s hwf hin
  refine ⟨t, hstore, fun hmem hi => ?_⟩
  have hsame : t.i = s.i := hframe .i (by simp)
  have haddr : u.dataAddr = s.dataAddr := congrArg BitVec.toNat (hi.trans hsame)
  obtain ⟨w, hload, hloaded, -, -⟩ := registersAreLoadedFromIndex x u (haddr ▸ hin)
  exact ⟨w, hload, fun r hr => by rw [hloaded r hr, hmem, haddr, hstored r hr]⟩

/-! O25, O26: the instructions that write I -/

theorem execANNN_eq (nnn : Addr) (s : State) :
    exec (.opANNN nnn) s = .next { s with pc := s.pc + 2, i := zextAddr nnn } := rfl

theorem execFX29_eq (x : Reg) (s : State) :
    exec (.opFX29 x) s = .next { s with pc := s.pc + 2, i := glyphAddr (s.readV x) } := rfl

theorem toNat_ofNat_of_lt {w n : Nat} (h : n < 2 ^ w) : (BitVec.ofNat w n).toNat = n :=
  (BitVec.toNat_ofNat n w).trans (Nat.mod_eq_of_lt h)

/-- A write of PC and I leaves everything else. -/
theorem sameExcept_pc_i (s : State) (p w : Word) : SameExceptList [.i, .pc] s { s with pc := p, i := w } := by
  intro c hc
  cases c with
  | i | pc => simp at hc
  | _ => rfl

theorem glyphAddr_toNat (b : Byte) : (glyphAddr b).toNat = 5 * (b.toNat % 16) :=
  toNat_ofNat_of_lt (by simp only [Config.glyphBytes]; omega)

/-- Settles O25: NNN and the glyph address both fit in I. -/
theorem indexLoadsWriteIndexAlone : Obligations.IndexLoadsWriteIndexAlone := by
  refine ⟨fun nnn s => ⟨?_, ?_⟩, fun x s => ⟨?_, ?_⟩⟩
  · exact encodedAs_of_and_eq ((Laws.EncodingRow.formatA_family 0xA nnn).trans (by decide))
  · exact ⟨_, execANNN_eq nnn s, zextAddr_toNat nnn, rfl, sameExcept_pc_i s _ _⟩
  · exact encodedAs_of_and_eq ((Laws.EncodingRow.formatXK_family_sub 0xF x 0x29).trans (by decide))
  · exact ⟨_, execFX29_eq x s, glyphAddr_toNat _, rfl, sameExcept_pc_i s _ _⟩

/-- Settles O26: the sum fits in I, or it is in the fault's record and nothing else is written but BEEP. -/
theorem addToIndexIsExactOrFaults : Obligations.AddToIndexIsExactOrFaults := by
  intro x s
  obtain ⟨t, ht⟩ := exec_answers (.opFX1E x) s
  rcases execFX1E_cases ht with ⟨hover, rfl⟩ | ⟨hfits, rfl⟩
  · exact ⟨fun hfits => absurd hover hfits.not_gt, fun _ => ⟨_, ht, rfl, rfl, sameExcept_faulted s _⟩⟩
  · exact ⟨fun _ => ⟨_, ht, toNat_ofNat_of_lt (Nat.lt_succ_of_le hfits), rfl, sameExcept_pc_i s _ _⟩,
      fun hover => absurd hover hfits.not_gt⟩

/-! O27: the decimal digits -/

/-- FX33 with its bytes inside memory stores the digits (R163). -/
theorem execFX33_of_inside {x : Reg} {s : State} (hin : s.dataAddr + 2 < 4096) :
    exec (.opFX33 x) s =
      .next { s with pc := s.pc + 2, mem := Memory.storeAll s.mem s.dataAddr (bcdDigits (s.readV x)) } := by
  obtain ⟨t, ht⟩ := exec_answers (.opFX33 x) s
  rcases execFX33_cases ht with ⟨hout, -⟩ | ⟨-, rfl⟩
  · omega
  · exact ht

/-- The digits of a byte as numbers: each fits in a byte. -/
theorem bcdDigits_map_toNat (b : Byte) :
    (bcdDigits b).map BitVec.toNat = [b.toNat / 100, b.toNat / 10 % 10, b.toNat % 10] := by
  have := b.isLt
  simp only [bcdDigits, List.map_cons, List.map_nil]
  rw [toNat_ofNat_of_lt (by omega), toNat_ofNat_of_lt (by omega), toNat_ofNat_of_lt (by omega)]

/-- Byte `k` of the stored digits is digit `k`. -/
theorem read_storeAll_bcdDigits {m : Memory} {a k : Nat} (hwf : m.wf = true) (hin : a + 2 < 4096) (b : Byte) (hk : k < 3) :
    (Memory.read (Memory.storeAll m a (bcdDigits b)) (a + k)).toNat =
      [b.toNat / 100, b.toNat / 10 % 10, b.toNat % 10][k] := by
  rw [Memory.read_storeAll_inside (bs := bcdDigits b) hwf hin hk]
  simp only [← bcdDigits_map_toNat]
  exact (List.getElem_map BitVec.toNat).symm

/-- Settles O27: the three bytes are the digits, and the frame is that of three bytes. -/
theorem decimalDigitsAreStoredAtIndex : Obligations.DecimalDigitsAreStoredAtIndex := by
  intro x s hwf hin
  have hdigit {k : Nat} (hk : k < 3) := read_storeAll_bcdDigits hwf hin (s.readV x) hk
  exact ⟨_, execFX33_of_inside hin, hdigit (k := 0) (by decide), hdigit (k := 1) (by decide),
    hdigit (k := 2) (by decide), rfl, sameExcept_store s _ (bcdDigits (s.readV x))⟩

end Sys2Proof.Machine

/-! The display family: 00E0 and DXYN (R170 to R174), and R171's loop over pixels. -/

namespace Sys2Proof.Machine

/-! What a draw does to the screen and to its collision test, one pixel at a time -/

/-- Of a framebuffer and a hit flag: the on-screen pixels that changed are those of `p`, and the flag was set when one of
them held 1 (R171, R173). It does not say how the pixels were visited: a row, a sprite and a single pixel all do this. -/
structure Draws (p : Nat → Nat → Prop) (a a' : Framebuffer × Bool) : Prop where
  flips : ∀ (px : Fin 64) (py : Fin 32), a'.1.pixel px py ≠ a.1.pixel px py ↔ p px py
  hit : a'.2 = true ↔ a.2 = true ∨ ∃ (px : Fin 64) (py : Fin 32), a.1.pixel px py = true ∧ p px py

section
variable {p q : Nat → Nat → Prop} {a b c : Framebuffer × Bool}

theorem Draws.congr (h : Draws p a b) (hpq : ∀ (px : Fin 64) (py : Fin 32), p px py ↔ q px py) : Draws q a b where
  flips px py := (h.flips px py).trans (hpq px py)
  hit := by simp only [h.hit, hpq]

theorem Draws.refl_of_off_screen (h : ∀ (px : Fin 64) (py : Fin 32), ¬ p px py) : Draws p a a where
  flips px py := by simp [h px py]
  hit := by simp [h]

/-- A pixel that a draw leaves out keeps its value. -/
theorem Draws.pixel_eq_of_not (h : Draws p a b) {px : Fin 64} {py : Fin 32} (hp : ¬ p px py) :
    b.1.pixel px py = a.1.pixel px py :=
  not_not.mp (mt (h.flips px py).mp hp)

/-- A pixel that a draw takes in is inverted. -/
theorem Draws.pixel_eq_not_of (h : Draws p a b) {px : Fin 64} {py : Fin 32} (hp : p px py) :
    b.1.pixel px py = !a.1.pixel px py :=
  Bool.eq_not_of_ne ((h.flips px py).mpr hp)

/-- The pixels decide the framebuffer and the flag. -/
theorem Draws.unique (hb : Draws p a b) (hc : Draws p a c) : b = c := by
  refine Prod.ext (framebuffer_ext fun px py => ?_) (Bool.eq_iff_iff.mpr (hb.hit.trans hc.hit.symm))
  by_cases hp : p px py
  · rw [hb.pixel_eq_not_of hp, hc.pixel_eq_not_of hp]
  · rw [hb.pixel_eq_of_not hp, hc.pixel_eq_of_not hp]

/-- Two draws with no pixel in common are one draw of both: the second still sees its pixels as they were. -/
theorem Draws.trans (h : Draws p a b) (h' : Draws q b c)
    (hdisj : ∀ px py, p px py → ¬ q px py) : Draws (fun px py => p px py ∨ q px py) a c where
  flips px py := by
    by_cases hp : p px py
    · rw [h'.pixel_eq_of_not (hdisj _ _ hp), h.flips]
      simp [hp]
    · rw [← h.pixel_eq_of_not hp, h'.flips]
      simp [hp]
  hit := by
    have hsees (px : Fin 64) (py : Fin 32) (hq : q px py) : b.1.pixel px py = a.1.pixel px py :=
      h.pixel_eq_of_not fun hp => hdisj _ _ hp hq
    have hlit (px : Fin 64) (py : Fin 32) : b.1.pixel px py = true ∧ q px py ↔ a.1.pixel px py = true ∧ q px py :=
      and_congr_left fun hq => by rw [hsees px py hq]
    simp only [h'.hit, h.hit, hlit, and_or_left, exists_or, or_assoc]

/-- The flag is set exactly when a pixel went from 1 to 0 (R173). -/
theorem Draws.hit_iff_turned_off (h : Draws p a b) (ha : a.2 = false) :
    b.2 = true ↔ ∃ (px : Fin 64) (py : Fin 32), a.1.pixel px py = true ∧ b.1.pixel px py = false := by
  simp only [h.hit, ha, Bool.false_eq_true, false_or]
  refine exists_congr fun px => exists_congr fun py => and_congr_right fun hlit => ?_
  rw [← h.flips, hlit, ne_eq, Bool.not_eq_true]

/-- A second draw of the same pixels undoes the first (R174). -/
theorem Draws.twice_restores (h : Draws p a b) (h' : Draws p (b.1, false) c) : c.1 = a.1 := by
  refine framebuffer_ext fun px py => ?_
  by_cases hp : p px py
  · rw [h'.pixel_eq_not_of hp, h.pixel_eq_not_of hp, Bool.not_not]
  · rw [h'.pixel_eq_of_not hp, h.pixel_eq_of_not hp]

/-- A second draw of the same pixels hits where one of them was 0 before the first (R174). -/
theorem Draws.twice_hit (h : Draws p a b) (h' : Draws p (b.1, false) c) :
    c.2 = true ↔ ∃ (px : Fin 64) (py : Fin 32), p px py ∧ a.1.pixel px py = false := by
  simp only [h'.hit, Bool.false_eq_true, false_or]
  refine exists_congr fun px => exists_congr fun py => and_comm.trans (and_congr_right fun hp => ?_)
  rw [h.pixel_eq_not_of hp, Bool.not_eq_true']

end

theorem xor_ne_self_iff : ∀ a b : Bool, (a ^^ b) ≠ a ↔ b = true := by decide

/-- The model's row-wise draw changes the pixels of its mask (R171, R173). -/
theorem draws_spriteMask (fb : Framebuffer) (rows : List Byte) (x0 y0 : Nat) :
    Draws (fun px py => (spriteMask rows x0 y0 py).getMsbD px = true) (fb, false)
      (fb.xorSprite rows x0 y0, fb.collides rows x0 y0) where
  flips px py := by
    rw [xorSprite_pixel _ _ _ _ _ _ py.isLt]
    exact xor_ne_self_iff _ _
  hit := by simp [collides_iff]

/-! O36: R171's two loops -/

/-- Bit `7 − c` of `b` is 1, and (px, py) is where R171 draws it in row `y`. -/
def coversColumn (b : Byte) (x0 y c px py : Nat) : Prop := px = x0 + c ∧ py = y ∧ b.getLsbD (7 - c) = true

/-- Some row and column of the sprite land on (px, py) with a 1 bit (R172). -/
def coversRows (rows : List Byte) (x0 y0 px py : Nat) : Prop :=
  ∃ r c b, rows[r]? = some b ∧ c < 8 ∧ px = x0 + c ∧ py = y0 + r ∧ b.getLsbD (7 - c) = true

/-- Row 0 of a sprite, or a row of the sprite below it that starts one row further down. -/
theorem coversRows_cons (b : Byte) (rows : List Byte) (x0 y0 px py : Nat) :
    coversRows (b :: rows) x0 y0 px py ↔
      (∃ c ∈ List.range 8, coversColumn b x0 y0 c px py) ∨ coversRows rows x0 (y0 + 1) px py := by
  simp only [coversRows, coversColumn, List.mem_range]
  constructor
  · rintro ⟨r, c, b', hb, hc, hx, hy, hbit⟩
    cases r with
    | zero => cases hb; exact .inl ⟨c, hc, hx, hy, hbit⟩
    | succ r => exact .inr ⟨r, c, b', hb, hc, hx, by omega, hbit⟩
  · rintro (⟨c, hc, hx, hy, hbit⟩ | ⟨r, c, b', hb, hc, hx, hy, hbit⟩)
    · exact ⟨0, c, b, rfl, hc, hx, hy, hbit⟩
    · exact ⟨r + 1, c, b', hb, hc, hx, by omega, hbit⟩

/-- A flip inverts its own pixel and no other. -/
theorem flip_pixel_ne_iff (fb : Framebuffer) {x y : Nat} (hx : x ≤ 63) (hy : y ≤ 31) (px : Fin 64) (py : Fin 32) :
    (fb.flip x y).pixel px py ≠ fb.pixel px py ↔ px = x ∧ py = y := by
  have hlt : y < 32 := Nat.lt_succ_of_le hy
  by_cases hrow : y = py
  · have hcol : (BitVec.twoPow 64 (63 - x)).getMsbD px = true ↔ px = x := by
      simp only [BitVec.getMsbD_twoPow, Bool.and_eq_true, decide_eq_true_eq]
      omega
    subst hrow
    simp only [Framebuffer.pixel, Framebuffer.flip, hlt, dif_pos, Vector.getElem_set_self, BitVec.getMsbD_xor,
      xor_ne_self_iff, hcol, and_true]
  · simp [Framebuffer.flip, Framebuffer.pixel, hlt, Vector.getElem_set_ne, hrow, Ne.symm hrow]

/-- The body of the inner loop draws its one pixel, or nothing when that is not on the screen or its bit is 0. -/
theorem draws_pixelLoopBody (b : Byte) (x0 y : Nat) (acc : Framebuffer × Bool) (c : Nat) :
    Draws (coversColumn b x0 y c) acc (pixelLoopBody b x0 y acc c) := by
  unfold pixelLoopBody
  split
  · next hbit =>
    split
    · next hon =>
      obtain ⟨hx, hy⟩ := hon
      refine ⟨fun px py => by simp [flip_pixel_ne_iff _ hx hy, coversColumn, hbit], ?_⟩
      simp only [Bool.or_eq_true, coversColumn, hbit, and_true]
      refine or_congr_right ⟨fun hlit => ⟨⟨x0 + c, by omega⟩, ⟨y, by omega⟩, hlit, rfl, rfl⟩, ?_⟩
      rintro ⟨px, py, hlit, hpx, hpy⟩
      rwa [← hpx, ← hpy]
    · next hoff => exact .refl_of_off_screen fun px py ⟨hx, hy, _⟩ => hoff (by omega)
  · next hbit => exact .refl_of_off_screen fun px py ⟨_, _, h⟩ => hbit h

/-- The inner loop over distinct columns draws the pixels of all of them. -/
theorem draws_foldl_pixelLoopBody (b : Byte) (x0 y : Nat) {cs : List Nat} (hcs : cs.Nodup) (acc : Framebuffer × Bool) :
    Draws (fun px py => ∃ c ∈ cs, coversColumn b x0 y c px py) acc (cs.foldl (pixelLoopBody b x0 y) acc) := by
  induction cs generalizing acc with
  | nil => exact .refl_of_off_screen (by simp)
  | cons c cs ih =>
    obtain ⟨hc, hcs⟩ := List.nodup_cons.mp hcs
    refine ((draws_pixelLoopBody b x0 y acc c).trans (ih hcs _) ?_).congr (by simp)
    rintro px py ⟨hx, -, -⟩ ⟨d, hd, hx', -, -⟩
    exact hc ((show c = d by omega) ▸ hd)

/-- The two loops draw the pixels that the sprite covers: each row comes after those above it and meets none of them. -/
theorem draws_pixelLoop (rows : List Byte) (x0 y0 : Nat) (acc : Framebuffer × Bool) :
    Draws (coversRows rows x0 y0) acc (pixelLoop rows x0 y0 acc) := by
  induction rows generalizing y0 acc with
  | nil => exact .refl_of_off_screen (by simp [coversRows])
  | cons b rows ih =>
    refine ((draws_foldl_pixelLoopBody b x0 y0 List.nodup_range acc).trans (ih (y0 + 1) _) ?_).congr
      fun px py => (coversRows_cons b rows x0 y0 px py).symm
    rintro px py ⟨c, -, -, hy, -⟩ ⟨r, d, b', -, -, -, hy', -⟩
    omega

/-- Settles O36: the loops and the row-wise draw change the same pixels of the same framebuffer. -/
theorem rowDrawingMatchesThePixelLoop : Obligations.RowDrawingMatchesThePixelLoop := fun fb rows x0 y0 =>
  (draws_pixelLoop rows x0 y0 (fb, false)).unique
    ((draws_spriteMask fb rows x0 y0).congr fun px py => spriteMask_pixel rows x0 y0 px py px.isLt)

/-! O34, O35: DXYN -/

/-- What DXYN leaves when it draws: the framebuffer, VF by the collision, RD and PC (R171). -/
def State.drawn (s : State) (fb : Framebuffer) (hit : Bool) : State :=
  { (s.writeV vf (flagByte hit)).advance with fb := fb, rd := true }

/-- A write of PC, RD and the framebuffer leaves everything else. -/
theorem sameExcept_screen (s : State) (pc : Word) (fb : Framebuffer) (rd : Bool) :
    SameExcept (fun c => c = .pc ∨ c = .rd ∨ ∃ x y, c = .pixel x y) s { s with pc := pc, fb := fb, rd := rd } := by
  intro c hc
  cases c with
  | pc | rd | pixel => simp at hc
  | _ => rfl

theorem sameExcept_drawn (s : State) (fb : Framebuffer) (hit : Bool) :
    SameExcept (fun c => c = .pc ∨ c = .rd ∨ c = .v vf ∨ ∃ px py, c = .pixel px py) s (s.drawn fb hit) := by
  intro c hc
  simp only [not_or] at hc
  obtain ⟨hpc, hrd, hvf, hpixel⟩ := hc
  exact Component.same_trans (sameExcept_writeV s vf _ c (by simpa using hvf))
    (sameExcept_screen _ _ fb true c (by simp only [not_or]; exact ⟨hpc, hrd, hpixel⟩))

theorem readV_drawn_vf (s : State) (fb : Framebuffer) (hit : Bool) : (s.drawn fb hit).readV vf = flagByte hit :=
  State.readV_writeV_same s vf _

theorem readV_drawn_ne (s : State) (fb : Framebuffer) (hit : Bool) {r : Reg} (h : r ≠ vf) :
    (s.drawn fb hit).readV r = s.readV r :=
  State.readV_writeV_ne s h _

theorem flagByte_eq_one_iff (c : Bool) : flagByte c = 1 ↔ c = true := by
  cases c <;> decide

/-- DXYN with its sprite bytes inside memory, or none, draws the pixels that the sprite at I covers (R171, R172). -/
theorem execDXYN_draws {x y : Reg} {n : Nibble} {s : State} (hin : n = 0 ∨ s.dataAddr + n.toNat ≤ 4096) :
    ∃ fb hit, exec (.opDXYN x y n) s = .next (s.drawn fb hit) ∧
      Draws (s.covers (s.readV x).toNat (s.readV y).toNat n.toNat) (s.fb, false) (fb, hit) := by
  obtain ⟨t, ht⟩ := exec_answers (.opDXYN x y n) s
  rcases execDXYN_cases ht with ⟨hn, hout, -⟩ | ⟨-, rfl⟩
  · rcases hin with rfl | hin
    · exact absurd rfl hn
    · omega
  · exact ⟨_, _, ht, (draws_spriteMask _ _ _ _).congr fun px py => spriteMask_covers s _ _ _ px py px.isLt⟩

/-- Settles O34: the changed pixels are those covered, and the flag byte is the collision. -/
theorem drawFlipsTheCoveredPixels : Obligations.DrawFlipsTheCoveredPixels := by
  intro x y n s hin
  obtain ⟨fb, hit, hexec, hdraw⟩ := execDXYN_draws (x := x) (y := y) hin
  have hoff : hit = true ↔ _ := hdraw.hit_iff_turned_off rfl
  refine ⟨_, hexec, hdraw.flips, fun h => ?_, fun h => ?_, rfl, rfl, sameExcept_drawn s fb hit⟩
  · rw [readV_drawn_vf, hoff.mpr h]
    rfl
  · rw [readV_drawn_vf, Bool.eq_false_iff.mpr (mt hoff.mp h)]
    rfl

/-- Settles O35: the first draw leaves I, memory, V[X] and V[Y], so the second draws the same pixels. -/
theorem drawingTwiceRestoresTheScreen : Obligations.DrawingTwiceRestoresTheScreen := by
  intro x y n s hx hy hin
  obtain ⟨fb, hit, hexec, hdraw⟩ := execDXYN_draws (x := x) (y := y) hin
  obtain ⟨fb', hit', hexec', hdraw'⟩ := execDXYN_draws (x := x) (y := y) (s := s.drawn fb hit) hin
  rw [readV_drawn_ne s fb hit hx, readV_drawn_ne s fb hit hy] at hdraw'
  have hagain : Draws (s.covers (s.readV x).toNat (s.readV y).toNat n.toNat) (fb, false) (fb', hit') := hdraw'
  refine ⟨_, _, hexec, hexec', hdraw.twice_restores hagain, ?_⟩
  rw [readV_drawn_vf, flagByte_eq_one_iff]
  exact hdraw.twice_hit hagain

/-! O33: 00E0 -/

theorem exec00E0_eq (s : State) :
    exec .op00E0 s = .next { s with pc := s.pc + 2, fb := Vector.replicate 32 0, rd := true } := rfl

theorem pixel_replicate_zero (x y : Nat) : Framebuffer.pixel (Vector.replicate 32 0) x y = false := by
  simp [Framebuffer.pixel]

/-- Settles O33: the word by the round trip of the encoding, the pixels because every row is 0. -/
theorem clearScreenClearsEveryPixel : Obligations.ClearScreenClearsEveryPixel := fun s =>
  ⟨fun _ => ⟨fun h => (encode_of_decode h).symm, fun h => h ▸ decode_encode .op00E0⟩,
    _, exec00E0_eq s, fun x y => pixel_replicate_zero x y, rfl, rfl, sameExcept_screen s _ _ _⟩

end Sys2Proof.Machine

/-! The timer and key family: FX07, FX15, FX18 and FX0A (R180 to R184). -/

namespace Sys2Proof.Machine

/-- The step that runs an instruction that leaves no fault is the instruction, then the tick; it leaves no fault either. -/
theorem step_of_fetches_completed {i : Instr} {s u : State} (hi : s.Fetches i) (hu : exec i s.startStep = .next u)
    (hf : u.fault = s.fault) : step s = .next u.endStep ∧ u.endStep.fault = none := by
  have hnone : u.fault = none := hf.trans hi.1
  exact ⟨State.settle_of_none hnone ▸ step_of_fetches hi hu, hnone⟩

/-! O39: FX18, and BEEP after a completed step -/

theorem execFX18_eq (x : Reg) (s : State) : exec (.opFX18 x) s = .next { s.advance with st := s.readV x } := rfl

/-- A write of ST and PC leaves everything else. -/
theorem sameExcept_st_advance (s : State) (b : Byte) : SameExceptList [.st, .pc] s { s.advance with st := b } := by
  intro c hc
  cases c with
  | st | pc => simp at hc
  | _ => rfl

/-- BEEP stays 0 from the start of a step until its tick: no instruction sets it, and a fault clears it (R38, R111). -/
theorem exec_startStep_beep {i : Instr} {s u : State} (h : exec i s.startStep = .next u) : u.beep = false := by
  rcases exec_cases h with ⟨kind, info, -, -, rfl⟩ | ⟨-, hbeep, -⟩
  · rfl
  · exact hbeep

/-- Settles O39: BEEP is 0 when the tick begins, and before it only FX18 writes ST, whether an instruction or a key-wait
check comes before the tick. -/
theorem setSoundTimerBeepsOnOneToZero : Obligations.SetSoundTimerBeepsOnOneToZero := by
  refine ⟨fun x s => ⟨?_, ?_⟩, fun x s hi => ?_, fun s t h ht hno => ?_⟩
  · exact encodedAs_of_and_eq ((Laws.EncodingRow.formatXK_family_sub 0xF x 0x18).trans (by decide))
  · exact ⟨_, execFX18_eq x s, rfl, rfl, sameExcept_st_advance s _⟩
  · obtain ⟨hstep, hf⟩ := step_of_fetches_completed hi (execFX18_eq x s.startStep) rfl
    exact ⟨_, hstep, hf, rfl, tickDown_toNat (s.readV x), State.endStep_beep_iff rfl⟩
  · rcases step_completed_cases h ht with ⟨x, rfl⟩ | ⟨i, u, hi, hu, rfl⟩
    · rw [State.endStep_st, tickDown_toNat, State.endStep_beep_iff (State.keyWaitCheck_beep _ x),
        State.keyWaitCheck_st, State.startStep_st]
      exact ⟨rfl, .rfl⟩
    · obtain ⟨-, hst | ⟨x, rfl⟩⟩ := exec_timers hu
      · rw [State.endStep_st, tickDown_toNat, State.endStep_beep_iff (exec_startStep_beep hu), hst, State.startStep_st]
        exact ⟨rfl, .rfl⟩
      · exact absurd ⟨x, hi⟩ hno

/-! O37, O38: FX07 and FX15 -/

theorem execFX07_eq (x : Reg) (s : State) : exec (.opFX07 x) s = .next (s.writeV x s.dt).advance := rfl

theorem execFX15_eq (x : Reg) (s : State) : exec (.opFX15 x) s = .next { s.advance with dt := s.readV x } := rfl

/-- A write of DT and PC leaves everything else. -/
theorem sameExcept_dt_advance (s : State) (b : Byte) : SameExceptList [.dt, .pc] s { s.advance with dt := b } := by
  intro c hc
  cases c with
  | dt | pc => simp at hc
  | _ => rfl

/-- A timer that is not 0 is one more than what its tick leaves (R108). -/
theorem toNat_eq_tickDown_add_one {b : Byte} (h : b ≠ 0) : b.toNat = (tickDown b).toNat + 1 := by
  have hpos : 0 < b.toNat := Nat.pos_of_ne_zero fun h0 => h (BitVec.eq_of_toNat_eq h0)
  rw [tickDown_toNat, Nat.sub_add_cancel hpos]

/-- Settles O37: V[X] holds DT as it was before the tick, and DT ends as the tick of that same value. -/
theorem readDelayTimerSeesTheValueBeforeTheTick : Obligations.ReadDelayTimerSeesTheValueBeforeTheTick := by
  refine ⟨fun x s => ⟨?_, ?_⟩, fun x s hi => ?_⟩
  · exact encodedAs_of_and_eq ((Laws.EncodingRow.formatXK_family_sub 0xF x 0x07).trans (by decide))
  · exact ⟨_, execFX07_eq x s, readV_writeV_advance_same s x _, rfl, sameExcept_writeV_advance s x _⟩
  · obtain ⟨hstep, hf⟩ := step_of_fetches_completed hi (execFX07_eq x s.startStep) rfl
    have hread : (s.startStep.writeV x s.dt).advance.endStep.readV x = s.dt := readV_writeV_advance_same s.startStep x s.dt
    refine ⟨_, hstep, hf, hread, rfl, fun hdt => ?_, fun hdt => ⟨hread.trans hdt, congrArg tickDown hdt⟩⟩
    exact (congrArg BitVec.toNat hread).trans (toNat_eq_tickDown_add_one hdt)

/-- Settles O38: the tick of the step counts down the value that FX15 has just written. -/
theorem setDelayTimerIsTickedInItsOwnStep : Obligations.SetDelayTimerIsTickedInItsOwnStep := by
  refine ⟨fun x s => ⟨?_, ?_⟩, fun x s hi => ?_⟩
  · exact encodedAs_of_and_eq ((Laws.EncodingRow.formatXK_family_sub 0xF x 0x15).trans (by decide))
  · exact ⟨_, execFX15_eq x s, rfl, rfl, sameExcept_dt_advance s _⟩
  · obtain ⟨hstep, hf⟩ := step_of_fetches_completed hi (execFX15_eq x s.startStep) rfl
    exact ⟨_, hstep, hf, rfl, tickDown_toNat (s.readV x)⟩

/-! O40: FX0A -/

section
variable {s : State} (x : Reg)

theorem execFX0A_of_some {k : Nat} (h : s.newKey = some k) :
    exec (.opFX0A x) s = .next (s.writeV x (BitVec.ofNat 8 k)).advance := by
  simp only [exec, execFX0A, h]

theorem execFX0A_of_none (h : s.newKey = none) : exec (.opFX0A x) s = .next { s with wait := .awaitingKey x } := by
  simp only [exec, execFX0A, h]

end

/-- A write of WAIT leaves everything else. -/
theorem sameExcept_wait (s : State) (w : Wait) : SameExceptList [.wait] s { s with wait := w } := by
  intro c hc
  cases c with
  | wait => simp at hc
  | _ => rfl

/-- Settles O40: `newKey` answers the lowest new key, whose number fits in a register, or none. -/
theorem waitForKeyCompletesOrWaits : Obligations.WaitForKeyCompletesOrWaits := by
  refine fun x s => ⟨fun k hk hdown hup hlow => ?_, fun hheld => ?_⟩
  · refine ⟨_, execFX0A_of_some x (State.newKey_of_lowest hk hdown hup hlow), ?_, rfl, sameExcept_writeV_advance s x _⟩
    rw [readV_writeV_advance_same]
    exact toNat_ofNat_of_lt (by omega)
  · exact ⟨_, execFX0A_of_none x (State.newKey_of_held hheld), rfl, sameExcept_wait s _⟩

end Sys2Proof.Machine

/-! The exceptions family: the step that an unfaulted engine always has, and the faults that an instruction raises. -/

namespace Sys2Proof.Machine

/-- Settles O46: the key-wait check always completes; else the fetch fails, the decoder refuses the word, or the
instruction answers a next state, and each of the three ends in a step. -/
theorem unfaultedEngineAlwaysSteps : Obligations.UnfaultedEngineAlwaysSteps := by
  intro s hf
  cases hw : s.wait with
  | awaitingKey x => exact ⟨_, step_of_awaitingKey hf hw⟩
  | running =>
    cases hop : fetch s with
    | error a =>
      obtain ⟨hpc, -⟩ := fetch_eq_error.mp hop
      exact ⟨_, step_of_fetch_outside hf hw hpc⟩
    | ok op =>
      cases hd : decode op with
      | error e => exact ⟨_, step_of_decode_error hf hw hop hd⟩
      | ok i =>
        obtain ⟨u, hu⟩ := exec_answers i s.startStep
        exact ⟨_, step_of_fetches ⟨hf, hw, op, hop, hd⟩ hu⟩

/-- Settles O48: an execution that raises no fault leaves FAULT absent as it was; one that does leaves the record of its
own kind. -/
theorem instructionsRaiseOnlyTheirOwnFault : Obligations.InstructionsRaiseOnlyTheirOwnFault := by
  intro i s t r hf h hr
  rcases exec_cases h with ⟨kind, info, hown, hspec, rfl⟩ | ⟨hkeep, -⟩
  · obtain rfl : _ = r := Option.some.inj hr
    exact ⟨hown, rfl, rfl, hspec⟩
  · rw [hkeep, hf] at hr
    cases hr

end Sys2Proof.Machine

/-! The reset family: the state after construction, and the first step without an image (R220 to R222). -/

namespace Sys2Proof.Machine

/-! O59: memory after construction, and the default font -/

/-- The font stands at addresses 0 to 79 (R32). -/
theorem read_construct_font (font : Vector Byte 80) {a : Nat} (h : a < 80) :
    Memory.read (construct font).mem a = font[a] := by
  have hread : Memory.read (Memory.storeAll [] 0 font.toList) (0 + a) = font.toList[a]'(by simpa using h) :=
    Memory.read_storeAll_inside rfl (by simp [Config.memSize]) (by simpa using h)
  rwa [Nat.zero_add, Vector.getElem_toList] at hread

/-- Above the font every byte is 0 (R221). -/
theorem read_construct_above_font (font : Vector Byte 80) {a : Nat} (h : 80 ≤ a) :
    Memory.read (construct font).mem a = 0 := calc
  Memory.read (construct font).mem a = Memory.resetByte a :=
    Memory.read_storeAll_outside [] (.inr (by simpa using h))
  _ = 0 := if_neg (Nat.not_lt.mpr h)

/-- The default font written over itself lists no byte. -/
theorem Memory.storeAll_fontDefault : Memory.storeAll [] 0 fontDefault = [] := by decide

theorem construct_eq_reset {font : Vector Byte 80} (h : font.toList = fontDefault) : construct font = State.reset := by
  have hmem : Memory.storeAll State.reset.mem 0 font.toList = State.reset.mem := h ▸ Memory.storeAll_fontDefault
  rw [construct, hmem]

/-- Settles O59: construction writes memory alone, so every other field is `State.reset`'s own. -/
theorem constructionGivesTheResetState : Obligations.ConstructionGivesTheResetState := by
  refine ⟨fun font => ?_, fun font => construct_eq_reset⟩
  have hv (r : Reg) : (construct font).readV r = 0 := Vector.getElem_replicate r.isLt
  have hstack (k : Fin 16) : (construct font).stack[k.val] = 0 := Vector.getElem_replicate k.isLt
  exact ⟨hv, rfl, rfl, hstack, rfl, rfl, rfl, fun _ => read_construct_font font, fun _ => read_construct_above_font font,
    fun x y => pixel_replicate_zero x y, rfl, rfl, rfl, rfl, rfl, rfl⟩

/-! O55: the reset state -/

/-- Settles O55: the reset state is the construction with the default font. -/
theorem resetMeetsTheInvariant : Obligations.ResetMeetsTheInvariant := by
  have hreset : construct ⟨fontDefault.toArray, rfl⟩ = State.reset := construct_eq_reset rfl
  rw [Obligations.ResetMeetsTheInvariant, ← hreset]
  exact inv_construct _

/-! O60: the first step without an image -/

/-- PC is above the font, so construction leaves the word 0x0000 there (R222). -/
theorem fetch_construct (font : Vector Byte 80) : fetch (construct font) = .ok 0x0000 := by
  have hpc : (construct font).pc.toNat = 512 := rfl
  refine fetch_eq_ok.mpr ⟨by omega, ?_⟩
  rw [read_construct_above_font font (by omega), read_construct_above_font font (by omega)]
  rfl

/-- Settles O60: the step fetches 0x0000, which the decoder refuses. -/
theorem firstStepWithoutAnImageFaults : Obligations.FirstStepWithoutAnImageFaults := by
  intro font
  have hill : wellFormedWord 0x0000 = false := by decide
  have hstep := step_of_decode_error rfl rfl (fetch_construct font) (decode_of_not_wellFormedWord hill)
  simp only [hostRun, hostDo, hstep]
  rfl

end Sys2Proof.Machine
